-- ==== Sys2Proof/Word.lean ====
section
/-! DEFINITION. The bit vectors of the block: bytes, 16-bit values, 9-bit line units, 48-bit command words and clock values (spec 00_scope.md R17). -/

namespace Sys2Proof

/-- A byte: 8 bits, unsigned (R17). -/
abbrev Byte := BitVec 8

/-- A `uint16` (R17). -/
abbrev Half := BitVec 16

/-- A 4-bit field: `op` and `rsvd` of a command word, `cur_op` (R38, R100). -/
abbrev Nibble := BitVec 4

/-- A unit of the line: 9 bits, bit 8 the marker (R17, R90). -/
abbrev LineUnit := BitVec 9

/-- A host command word (R100). -/
abbrev CmdWord := BitVec 48

/-- A clock sample or a duration in milliseconds. CLOCK_W is at most 32 (R13): the value is held zero-extended to
32 bits and every operation on it works modulo `2 ^ CLOCK_W` (`Machine.clockTrunc`). -/
abbrev Clock := BitVec 32

end Sys2Proof
end

