-- ==== Sys2Proof/Machine/Checksum.lean ====
section
/-! DEFINITION. The 16-bit additive checksum (spec 40_checksum.md). -/

namespace Sys2Proof.Machine

/-- One step of the accumulator: `acc +_16 zext_16(byte)` (R121). -/
def checksumAdd (acc : Half) (b : Byte) : Half := acc + b.setWidth 16

/-- `checksum(port, payload)` by the accumulation procedure of R121 (R120). -/
def checksum (port : Byte) (payload : List Byte) : Half :=
  payload.foldl checksumAdd (port.setWidth 16)

end Sys2Proof.Machine
end

