-- ==== Sys2Proof/Machine/Operands.lean ====
section
/-! DEFINITION. Operand forms: the fields of units, frames and command words (spec 30_encoding.md), the byte-order
converter (45_device.md R228, R229) and the frame as a pure function (41_encode.md R130). -/

namespace Sys2Proof.Machine

/-- `mark(b) = {1, b}` (R93). -/
def markUnit (b : Byte) : LineUnit := (1#1) ++ b

/-- `plain(b) = {0, b}` (R93). -/
def plainUnit (b : Byte) : LineUnit := (0#1) ++ b

/-- `strip(u) = u[7:0]` (R93). -/
def stripUnit (u : LineUnit) : Byte := u.extractLsb' 0 8

/-- `u[8] = 1` (R90, R147). -/
def isMarked (u : LineUnit) : Bool := u.getLsbD 8

/-- The high byte `v[15:8]` (R228). -/
def highByte (v : Half) : Byte := v.extractLsb' 8 8

/-- The low byte `v[7:0]` (R228). -/
def lowByte (v : Half) : Byte := v.extractLsb' 0 8

/-- `be16_pack` (R228). -/
def be16Pack (v : Half) : List Byte := [highByte v, lowByte v]

/-- `be16_unpack` (R229). -/
def be16Unpack (b0 b1 : Byte) : Half := b0 ++ b1

/-- The payload of a request frame (R97, R194). -/
def requestPayload (register parameter : Half) : List Byte := be16Pack register ++ be16Pack parameter

/-- The units of a frame with its checksum field given (the layout of R95). -/
def frameUnits (port : Byte) (payload : List Byte) (ck : Half) : List LineUnit :=
  markUnit port :: (payload.map plainUnit ++ [plainUnit (highByte ck), plainUnit (lowByte ck)])

/-- `encode(port, payload)` (R130). -/
def encodeFrame (port : Byte) (payload : List Byte) : List LineUnit :=
  frameUnits port payload (checksum port payload)

/-- `op`, bits 47:44 (R100). -/
def cmdOp (w : CmdWord) : Nibble := w.extractLsb' 44 4

/-- `rsvd`, bits 43:40 (R100). -/
def cmdRsvd (w : CmdWord) : Nibble := w.extractLsb' 40 4

/-- `port`, bits 39:32 (R100). -/
def cmdPort (w : CmdWord) : Byte := w.extractLsb' 32 8

/-- `a`, bits 31:16 (R100). -/
def cmdA (w : CmdWord) : Half := w.extractLsb' 16 16

/-- `b`, bits 15:0 (R100). -/
def cmdB (w : CmdWord) : Half := w.extractLsb' 0 16

/-- The command word with the given fields (R100). -/
def commandWord (op rsvd : Nibble) (port : Byte) (a b : Half) : CmdWord := op ++ rsvd ++ port ++ a ++ b

/-- The opcode map of R101. -/
def opSetTimeout : Nibble := 0x1
/-- QUERY (R101). -/
def opQuery : Nibble := 0x2
/-- CONTROL (R101). -/
def opControl : Nibble := 0x3
/-- SCAN (R101). -/
def opScan : Nibble := 0x4
/-- GET_REVISION (R101). -/
def opGetRevision : Nibble := 0x5
/-- RECV_REQ (R101). -/
def opRecvReq : Nibble := 0x6
/-- SEND_RSP (R101). -/
def opSendRsp : Nibble := 0x7
/-- SEND (R101). -/
def opSend : Nibble := 0x8
/-- RECEIVE (R101). -/
def opReceive : Nibble := 0x9
/-- LOADP (R101). -/
def opLoadp : Nibble := 0xA

/-- A value modulo `2 ^ CLOCK_W` (R17, R102). -/
def clockTrunc (clockW : Nat) (v : Clock) : Clock := BitVec.ofNat 32 (v.toNat % 2 ^ clockW)

/-- `ms = {a, b}[CLOCK_W-1:0]` (R102, R190). -/
def msOperand (clockW : Nat) (a b : Half) : Clock := clockTrunc clockW (a ++ b)

/-- `L = a[7:0]` of SEND (R102, R181). -/
def lengthOperand (a : Half) : Nat := (lowByte a).toNat

/-- `index = a[7:0]` of LOADP (R102, R185). -/
def indexOperand (a : Half) : Nat := (lowByte a).toNat

/-- `byte = b[7:0]` of LOADP (R102, R185). -/
def byteOperand (b : Half) : Byte := lowByte b

end Sys2Proof.Machine
end

