-- ==== Sys2Proof/Syntax.lean ====
section
/-! DEFINITION. The instructions: one constructor per row of spec/opcode_table.json (30_encoding.md R111), and the
three forms in which the block meets them (a unit, a frame, a command word). -/

namespace Sys2Proof

/-- One constructor per row of the opcode table. A command carries all the fields of its word, because acceptance
latches all of them (R38), used or not (R100). -/
inductive Instr where
  /-- START (R91): a marked unit. -/
  | start (data : Byte)
  /-- DATA (R92): an unmarked unit. -/
  | data (data : Byte)
  /-- FRAME (R95): port byte, payload, the checksum field as it stands on the wire. -/
  | frame (port : Byte) (payload : List Byte) (ck : Half)
  /-- REQ_FRAME (R97): a frame with a RequestPacket. -/
  | reqFrame (port : Byte) (register parameter : Half) (ck : Half)
  /-- RSP_FRAME (R98): a frame with a ResponsePacket. -/
  | rspFrame (port : Byte) (value : Half) (ck : Half)
  /-- SET_TIMEOUT (R190). -/
  | setTimeout (port : Byte) (a b : Half)
  /-- QUERY (R200): `a` the register, `b` the parameter. -/
  | query (port : Byte) (a b : Half)
  /-- CONTROL (R201): `a` the register, `b` the value. -/
  | control (port : Byte) (a b : Half)
  /-- SCAN (R202). -/
  | scan (port : Byte) (a b : Half)
  /-- GET_REVISION (R203). -/
  | getRevision (port : Byte) (a b : Half)
  /-- RECV_REQ (R221). -/
  | recvReq (port : Byte) (a b : Half)
  /-- SEND_RSP (R224): `port` the command-or-port byte, `b` the value. -/
  | sendRsp (port : Byte) (a b : Half)
  /-- SEND (R181): `a[7:0]` the length. -/
  | send (port : Byte) (a b : Half)
  /-- RECEIVE (R183). -/
  | receive (port : Byte) (a b : Half)
  /-- LOADP (R185): `a[7:0]` the index, `b[7:0]` the byte. -/
  | loadp (port : Byte) (a b : Half)
  /-- Reserved `op` 0x0 with `rsvd = 0` (R103). -/
  | reservedOp0 (port : Byte) (a b : Half)
  /-- Reserved `op` 0xB with `rsvd = 0` (R103). -/
  | reservedOpB (port : Byte) (a b : Half)
  /-- Reserved `op` 0xC with `rsvd = 0` (R103). -/
  | reservedOpC (port : Byte) (a b : Half)
  /-- Reserved `op` 0xD with `rsvd = 0` (R103). -/
  | reservedOpD (port : Byte) (a b : Half)
  /-- Reserved `op` 0xE with `rsvd = 0` (R103). -/
  | reservedOpE (port : Byte) (a b : Half)
  /-- Reserved `op` 0xF with `rsvd = 0` (R103). -/
  | reservedOpF (port : Byte) (a b : Half)
  /-- A word with `rsvd` bit 0 set, whatever its `op` (R103, R111). -/
  | reservedRsvdBit0 (op rsvd : Nibble) (port : Byte) (a b : Half)
  /-- A word whose lowest set `rsvd` bit is bit 1 (R103, R111). -/
  | reservedRsvdBit1 (op rsvd : Nibble) (port : Byte) (a b : Half)
  /-- A word whose lowest set `rsvd` bit is bit 2 (R103, R111). -/
  | reservedRsvdBit2 (op rsvd : Nibble) (port : Byte) (a b : Half)
  /-- A word whose lowest set `rsvd` bit is bit 3 (R103, R111). -/
  | reservedRsvdBit3 (op rsvd : Nibble) (port : Byte) (a b : Half)
  deriving DecidableEq, Repr

/-- What the block meets: one unit of the line, the units of a whole frame, or a command word (30_encoding.md). -/
inductive Code where
  | unit (u : LineUnit)
  | frame (us : List LineUnit)
  | command (w : CmdWord)
  deriving DecidableEq, Repr

/-- Why a list of units or of bytes is not the encoding of a frame (R95, R96). -/
inductive DecodeError where
  /-- The first unit is not marked, so the list does not begin with a START (R95). -/
  | noStartMarker
  /-- A later unit is marked (R95). -/
  | markerInside
  /-- Fewer than 3 bytes: no room for port byte and checksum (R96, R153). -/
  | tooShort
  deriving DecidableEq, Repr

end Sys2Proof
end

