-- ==== Sys2Proof/Decode.lean ====
section
/-! DEFINITION. The decoder, total, rejecting by name, and after it the encoder (spec 30_encoding.md). -/

namespace Sys2Proof

open Machine

/-- A unit is a START or a DATA by its marker bit alone (R91, R92, R147). -/
def decodeUnit (u : LineUnit) : Instr :=
  if isMarked u then .start (stripUnit u) else .data (stripUnit u)

/-- The row a frame falls under by the length of its payload (R95, R97, R98). -/
def frameInstr (port : Byte) (payload : List Byte) (ck : Half) : Instr :=
  match payload with
  | [v1, v0] => .rspFrame port (be16Unpack v1 v0) ck
  | [r1, r0, a1, a0] => .reqFrame port (be16Unpack r1 r0) (be16Unpack a1 a0) ck
  | _ => .frame port payload ck

/-- The fields of a frame of `n` collected bytes, located from both ends: the port byte is byte 0, the checksum
bytes `n-2` and `n-1`, the payload the bytes between (R96, R155). -/
def decodeBytes (bytes : List Byte) : Except DecodeError Instr :=
  match bytes with
  | p :: b1 :: b2 :: rest =>
    let tail := b1 :: b2 :: rest
    let l := tail.length - 2
    .ok (frameInstr p (tail.take l) (be16Unpack (tail.getD l 0) (tail.getD (l + 1) 0)))
  | _ => .error .tooShort

/-- The units of a frame: the first marked, the others not (R95). -/
def decodeFrame (us : List LineUnit) : Except DecodeError Instr :=
  match us with
  | [] => .error .tooShort
  | u :: rest =>
    if !isMarked u then .error .noStartMarker
    else if rest.any isMarked then .error .markerInside
    else decodeBytes (us.map stripUnit)

/-- Every 48-bit word has a row (R111). `rsvd` is looked at before `op`, in the order of R243 (log entry 8). -/
def decodeCommand (w : CmdWord) : Instr :=
  let op := cmdOp w
  let rsvd := cmdRsvd w
  let p := cmdPort w
  let a := cmdA w
  let b := cmdB w
  if rsvd.getLsbD 0 then .reservedRsvdBit0 op rsvd p a b
  else if rsvd.getLsbD 1 then .reservedRsvdBit1 op rsvd p a b
  else if rsvd.getLsbD 2 then .reservedRsvdBit2 op rsvd p a b
  else if rsvd.getLsbD 3 then .reservedRsvdBit3 op rsvd p a b
  else if op = 0x0 then .reservedOp0 p a b
  else if op = opSetTimeout then .setTimeout p a b
  else if op = opQuery then .query p a b
  else if op = opControl then .control p a b
  else if op = opScan then .scan p a b
  else if op = opGetRevision then .getRevision p a b
  else if op = opRecvReq then .recvReq p a b
  else if op = opSendRsp then .sendRsp p a b
  else if op = opSend then .send p a b
  else if op = opReceive then .receive p a b
  else if op = opLoadp then .loadp p a b
  else if op = 0xB then .reservedOpB p a b
  else if op = 0xC then .reservedOpC p a b
  else if op = 0xD then .reservedOpD p a b
  else if op = 0xE then .reservedOpE p a b
  else .reservedOpF p a b

/-- The decoder. -/
def decode : Code → Except DecodeError Instr
  | .unit u => .ok (decodeUnit u)
  | .frame us => decodeFrame us
  | .command w => .ok (decodeCommand w)

/-- The encoder: the unit, the units of the frame, or the command word of an instruction (R91, R92, R95, R97, R98,
R100, R101). -/
def encode : Instr → Code
  | .start d => .unit (markUnit d)
  | .data d => .unit (plainUnit d)
  | .frame p d ck => .frame (frameUnits p d ck)
  | .reqFrame p r a ck => .frame (frameUnits p (requestPayload r a) ck)
  | .rspFrame p v ck => .frame (frameUnits p (be16Pack v) ck)
  | .setTimeout p a b => .command (commandWord opSetTimeout 0 p a b)
  | .query p a b => .command (commandWord opQuery 0 p a b)
  | .control p a b => .command (commandWord opControl 0 p a b)
  | .scan p a b => .command (commandWord opScan 0 p a b)
  | .getRevision p a b => .command (commandWord opGetRevision 0 p a b)
  | .recvReq p a b => .command (commandWord opRecvReq 0 p a b)
  | .sendRsp p a b => .command (commandWord opSendRsp 0 p a b)
  | .send p a b => .command (commandWord opSend 0 p a b)
  | .receive p a b => .command (commandWord opReceive 0 p a b)
  | .loadp p a b => .command (commandWord opLoadp 0 p a b)
  | .reservedOp0 p a b => .command (commandWord 0x0 0 p a b)
  | .reservedOpB p a b => .command (commandWord 0xB 0 p a b)
  | .reservedOpC p a b => .command (commandWord 0xC 0 p a b)
  | .reservedOpD p a b => .command (commandWord 0xD 0 p a b)
  | .reservedOpE p a b => .command (commandWord 0xE 0 p a b)
  | .reservedOpF p a b => .command (commandWord 0xF 0 p a b)
  | .reservedRsvdBit0 op r p a b => .command (commandWord op r p a b)
  | .reservedRsvdBit1 op r p a b => .command (commandWord op r p a b)
  | .reservedRsvdBit2 op r p a b => .command (commandWord op r p a b)
  | .reservedRsvdBit3 op r p a b => .command (commandWord op r p a b)

/-- The `n` units of a pattern of the table read as one number, the first unit in the most significant bits (R111). -/
def unitsOfNumber (n w : Nat) : List LineUnit :=
  (List.range n).map fun k => BitVec.ofNat 9 (w / 2 ^ (9 * (n - 1 - k)))

/-- The code that `nbits` table bits `w` stand for: 9 bits (or the 16 of two whole bytes) a unit; 27 (32), 45 and
63 (64) the three frame rows; 48 a command word (R111). At 48 bits the command word wins over the 45 bits of
RSP_FRAME rounded up to whole bytes (log entry 10). -/
def tableCode (nbits w : Nat) : Option Code :=
  if nbits = 9 ∨ nbits = 16 then (if w < 2 ^ 9 then some (.unit (BitVec.ofNat 9 w)) else none)
  else if nbits = 27 ∨ nbits = 32 then (if w < 2 ^ 27 then some (.frame (unitsOfNumber 3 w)) else none)
  else if nbits = 45 then (if w < 2 ^ 45 then some (.frame (unitsOfNumber 5 w)) else none)
  else if nbits = 63 ∨ nbits = 64 then (if w < 2 ^ 63 then some (.frame (unitsOfNumber 7 w)) else none)
  else if nbits = 48 then (if w < 2 ^ 48 then some (.command (BitVec.ofNat 48 w)) else none)
  else none

/-- The instruction the decoder reads from an instruction whose table bits are `w`. -/
def decodeTableWord (nbits w : Nat) : Option Instr :=
  match tableCode nbits w with
  | none => none
  | some c =>
    match decode c with
    | .ok i => some i
    | .error _ => none

end Sys2Proof
end

