-- ==== Sys2Proof/Config.lean ====
section
/-! DEFINITION. What an instance of the block fixes when it is built (spec 00_scope.md R13 to R15), and the free values. -/

namespace Sys2Proof

/-- The three byte arrays of the block (20_memory.md R60); the two unit streams are queues of their own. -/
inductive Space where
  | buf
  | txp
  | rxp
  deriving DecidableEq, Repr

/-- The implementation parameters of R13. They are fixed when the instance is built (R277); the model carries them
in `State.cfg`, so a statement about every state is a statement about every instance (log entry 1). -/
structure Params where
  /-- MAX_PAYLOAD, OPEN, 4 to 252 (D9). -/
  maxPayload : Nat
  /-- BUF_CAP, default MAX_LEN, 3 to 255 (D10). -/
  bufCap : Nat
  /-- CLOCK_W, default 32, 8 to 32 (D7). -/
  clockW : Nat
  /-- TIMEOUT_RESET, OPEN (D8). -/
  timeoutReset : Clock
  /-- DEVTYPE_REG, OPEN (D21). -/
  devtypeReg : Half
  /-- REV_REG_A, OPEN (D21). -/
  revRegA : Half
  /-- REV_REG_B, OPEN (D21). -/
  revRegB : Half
  /-- REV_REG_C, OPEN (D21). -/
  revRegC : Half
  /-- DEVTYPE_TABLE, OPEN: the graph of a partial map, the first entry of a raw value deciding (D21). -/
  devtypeTable : List (Half × Byte)
  deriving DecidableEq, Repr

/-- MAX_LEN = MAX_PAYLOAD + 3 (R13). -/
def Params.maxLen (c : Params) : Nat := c.maxPayload + 3

/-- The bounds of R13 and R14. -/
abbrev Params.Valid (c : Params) : Prop :=
  4 ≤ c.maxPayload ∧ c.maxPayload ≤ 252 ∧ 3 ≤ c.bufCap ∧ c.bufCap ≤ 255 ∧ 8 ≤ c.clockW ∧ c.clockW ≤ 32 ∧
    c.timeoutReset.toNat < 2 ^ c.clockW ∧
    (c.devtypeTable.all fun e => e.1 != 0xFFFF && e.2 != 0) = true

/-- The instance of the test vectors (95_test_vectors.md: MAX_PAYLOAD 8, BUF_CAP 11, CLOCK_W 32, and the example
values of programs P4 and P5). DESIGN CHOICE, unsafe (log entry 2): only `State.reset` uses it. -/
def Config.specExample : Params where
  maxPayload := 8
  bufCap := 11
  clockW := 32
  timeoutReset := 100
  devtypeReg := 0x0000
  revRegA := 0x0002
  revRegB := 0x0003
  revRegC := 0x0004
  devtypeTable := [(0x0003, 3)]

/-- FREE VALUE, DESIGN CHOICE, safe (log entry 3): the byte that index `i` of a byte array holds when nothing has
been written there since the `epoch`-th reset. R271 calls it "unspecified, any bytes". -/
opaque Config.unwrittenByte : (epoch : Nat) → (space : Space) → (i : Nat) → Byte

end Sys2Proof
end

