-- ==== Sys2Proof/Machine/State.lean ====
section
/-! DEFINITION. The state of the block and of the environment it samples, as plain data (spec 10_state.md), the
reset state (70_reset_and_hazards.md R271), and the reasons a step can stop. -/

namespace Sys2Proof.Machine

/-- The outcome kinds of R235, in the order of their codes 0x0 to 0x8. -/
inductive Kind where
  | ok
  | noData
  | timeout
  | truncated
  | overflow
  | checksumMismatch
  | unresolvedDeviceType
  | badLength
  | refused
  deriving DecidableEq, Repr

/-- The control points of the decode machine (R27). -/
inductive ControlPoint where
  | dOff
  | dBegin
  | dLoop
  | dRead
  | dEof
  | dFinish
  deriving DecidableEq, Repr

/-- The resolution of a request (R31, R193, R197); `overflow` and `badLength` as 90_conflicts.md C6 adds them. -/
inductive Resolution where
  | success (value : Half)
  | timeout
  | checksumError
  | truncated
  | overflow
  | badLength
  deriving DecidableEq, Repr

/-- `ctl_state` (R31). -/
inductive CtlState where
  | idle
  | sent
  | resolved (r : Resolution)
  deriving DecidableEq, Repr

/-- The position of the encoder in a frame: which unit it writes next (R29, R131). -/
inductive EncStage where
  | portUnit
  | payloadUnit (b : Byte) (rest : List Byte)
  | checksumHigh
  | checksumLow
  deriving DecidableEq, Repr

/-- The transient sequencing state of one run of the encoder, with the checksum accumulator (R26, R29, R131). -/
structure EncRun where
  port : Byte
  payload : List Byte
  stage : EncStage
  acc : Half
  deriving DecidableEq, Repr

/-- The diagnostic events of R262. `fail` carries its `diag_data`, `refused` its `{op, rsvd, port}`. -/
inductive DiagEvent where
  | timeoutEvt
  | fail (kind : Kind) (data : Half)
  | refused (data : Half)
  | resync (k : Byte)
  | frameTx (port : Byte) (payload : List Byte) (ck : Half)
  | frameRx (bytes : List Byte) (ckWire ckActual : Half)
  deriving DecidableEq, Repr

/-- What the environment does before one step of the block: units it appends to `rxq`, milliseconds by which it
advances the clock, the `rst` input, and a command word presented whether or not the block is busy
(R16, R82, R141, R243, R270). One entry of the environment script of R284. -/
structure EnvMove where
  arrivals : List LineUnit
  ticks : Nat
  rst : Bool
  present : Option CmdWord
  deriving DecidableEq, Repr

/-- The environment does nothing. -/
def EnvMove.quiet : EnvMove where
  arrivals := []
  ticks := 0
  rst := false
  present := none

/-- The bytes of one array that have been written since reset, as index and byte, indices strictly rising
(`Memory.wf`). An index that is not listed holds no known byte (`Config.unwrittenByte`). -/
abbrev Memory := List Host.Cell

/-- The state of one instance (R20), the environment state it samples (R50 to R53), and the model's own fields. -/
structure State where
  /-- The parameters of the instance (R13, R277): fixed, never written (log entry 1). -/
  cfg : Params
  /-- `buf[0 .. BUF_CAP-1]` (R21). -/
  buf : Memory
  /-- `cursor` (R22). -/
  cursor : Byte
  /-- `cp` (R27). -/
  cp : ControlPoint
  /-- The model's own: S1 has returned true in this attempt and S2 is still to come, `cp` being still `D_BEGIN`
  (R141, R143; log entry 5). -/
  s1Seen : Bool
  /-- `t_start` (R24). -/
  tStart : Clock
  /-- `RX_KIND` (R25). -/
  rxKind : Kind
  /-- `RX_PORT` (R25). -/
  rxPort : Byte
  /-- `RX_LEN` (R25). -/
  rxLen : Byte
  /-- `RXP[0 .. MAX_PAYLOAD-1]` (R25). -/
  rxp : Memory
  /-- `TIMEOUT` (R30). -/
  timeout : Clock
  /-- `ctl_state` (R31). -/
  ctl : CtlState
  /-- `t_req` (R32). -/
  tReq : Clock
  /-- `Q_VALUE` (R33). -/
  qValue : Half
  /-- `C_OK` (R34). -/
  cOk : Bool
  /-- `S_DEVTYPE` (R35). -/
  sDevtype : Byte
  /-- `REV_A` (R36). -/
  revA : Half
  /-- `REV_B` (R36). -/
  revB : Half
  /-- `REV_C` (R36). -/
  revC : Half
  /-- `REV_OK` (R36). -/
  revOk : Bool
  /-- `rev_idx` (R36). -/
  revIdx : Fin 3
  /-- `val[0]` (R43, R203). -/
  val0 : Half
  /-- `val[1]` (R43, R203). -/
  val1 : Half
  /-- `val[2]` (R43, R203). -/
  val2 : Half
  /-- `REQ_OK` (R37). -/
  reqOk : Bool
  /-- `REQ_PORT` (R37). -/
  reqPort : Byte
  /-- `REQ_REGISTER` (R37). -/
  reqRegister : Half
  /-- `REQ_PARAMETER` (R37). -/
  reqParameter : Half
  /-- `cur_op` (R38). -/
  curOp : Nibble
  /-- `op_port` (R38). -/
  opPort : Byte
  /-- `op_a` (R38). -/
  opA : Half
  /-- `op_b` (R38). -/
  opB : Half
  /-- `TXP[0 .. MAX_PAYLOAD-1]` (R39). -/
  txp : Memory
  /-- `busy` (R40). -/
  busy : Bool
  /-- The frame the encoder is sending, none between runs (R29). -/
  enc : Option EncRun
  /-- `rxq`, oldest first; the environment's (R50). -/
  rxq : List LineUnit
  /-- `txq`; the environment's (R51). -/
  txq : List LineUnit
  /-- `now`; the environment's (R52). -/
  now : Clock
  /-- `diag_log`, oldest first; the environment's (R53). -/
  diagLog : List DiagEvent
  /-- How often `cmd_refused` has pulsed (R41): the record of an output, not stored state of the block (log entry 7). -/
  refusedPulses : Nat
  /-- The environment script of R284: what the environment does before each coming step; when it is used up the
  environment does nothing more (log entry 4). -/
  script : List EnvMove
  /-- The command list of R284: the words the host has still to present, each when `busy = 0` (log entry 4). -/
  hostq : List CmdWord
  /-- The model's own: the number of resets so far, the argument of `Config.unwrittenByte` (log entry 3). -/
  epoch : Nat
  deriving DecidableEq, Repr

/-- Why the machine stops. -/
inductive Fault where
  /-- An index outside a byte array (R60, 93_implementation_defined.md U1): raised by the operations that store into
  BUF or RXP. Safe: the spec says such an access does not exist, and no state a run can reach raises it. -/
  | noSuchByte (space : Space) (index : Nat)
  deriving DecidableEq, Repr

/-- Why an instruction has no meaning. -/
inductive Refusal where
  /-- Raised by an arm of `exec` whose instruction has no meaning yet; no arm does. Safe: nothing is claimed of it. -/
  | notModelled (mnemonic : String)
  deriving DecidableEq, Repr

/-- The three outcomes of a step of this machine. -/
abbrev Out := Host.Outcome State Fault Refusal

/-- The reset state of a block with parameters `c`, every queue and log of the environment empty (R43, R271).
A register the spec gives no value for holds zero, OK, `idle` or nothing written (DESIGN CHOICE, unsafe, log entry 6). -/
def State.resetOf (c : Params) : State where
  cfg := c
  buf := []
  cursor := 0
  cp := .dOff
  s1Seen := false
  tStart := 0
  rxKind := .ok
  rxPort := 0
  rxLen := 0
  rxp := []
  timeout := c.timeoutReset
  ctl := .idle
  tReq := 0
  qValue := 0
  cOk := false
  sDevtype := 0
  revA := 0
  revB := 0
  revC := 0
  revOk := false
  revIdx := 0
  val0 := 0
  val1 := 0
  val2 := 0
  reqOk := false
  reqPort := 0
  reqRegister := 0
  reqParameter := 0
  curOp := 0
  opPort := 0
  opA := 0
  opB := 0
  txp := []
  busy := false
  enc := none
  rxq := []
  txq := []
  now := 0
  diagLog := []
  refusedPulses := 0
  script := []
  hostq := []
  epoch := 0

/-- The machine right after reset, as the instance of the test vectors (R271; log entry 2). -/
def State.reset : State := State.resetOf Config.specExample

end Sys2Proof.Machine
end

