-- ==== Sys2Proof/Machine/Flags.lean ====
section
/-! DEFINITION. Every condition the block tests and every status code it shows: the block has no arithmetic
condition codes (spec 10_state.md R42); what it has are the deadline, gap, length, overflow, checksum and refusal
tests, the outcome kind codes (R235) and the diagnostic codes (R262). -/

namespace Sys2Proof.Machine

/-- `elapsed(t0, t1) = t1 -_CLOCK_W t0` (R256). -/
def elapsed (clockW : Nat) (t0 t1 : Clock) : Clock := clockTrunc clockW (t1 - t0)

/-- A deadline test: `elapsed(t0, now) > TIMEOUT`, unsigned and strict (R145, R196, R256). -/
def deadlinePassed (c : Params) (t0 now timeout : Clock) : Bool :=
  decide (timeout.toNat < (elapsed c.clockW t0 now).toNat)

/-- `TP.units_available()` (R73). -/
def unitsAvailable (s : State) : Bool := !s.rxq.isEmpty

/-- The append of step 2e finds no room: `cursor = BUF_CAP` (R150). -/
def bufferFull (s : State) : Bool := s.cursor.toNat == s.cfg.bufCap

/-- The completion test of step 2f: no further unit, or `cursor >= MAX_LEN` (R152). -/
def frameComplete (s : State) : Bool := !unitsAvailable s || decide (s.cfg.maxLen ≤ s.cursor.toNat)

/-- The completion check of step 3: fewer than 3 bytes (R153). -/
def tooShort (s : State) : Bool := decide (s.cursor.toNat < 3)

/-- The commands that run the request mechanics: QUERY, CONTROL, SCAN, GET_REVISION (R193). -/
def isRequestOp (op : Nibble) : Bool :=
  op == opQuery || op == opControl || op == opScan || op == opGetRevision

/-- The reserved `op` values (R103, R243). -/
def isReservedOp (op : Nibble) : Bool :=
  op == 0x0 || op == 0xB || op == 0xC || op == 0xD || op == 0xE || op == 0xF

/-- Whether a presented command word is refused: the five tests of R243 in their order (R248). -/
def refuses (c : Params) (busy : Bool) (w : CmdWord) : Bool :=
  busy || cmdRsvd w != 0 || isReservedOp (cmdOp w) ||
    (cmdOp w == opSend && decide (c.maxPayload < lengthOperand (cmdA w))) ||
    (cmdOp w == opLoadp && decide (c.maxPayload ≤ indexOperand (cmdA w)))

/-- DEVTYPE_TABLE as a partial map (R13, R202). -/
def devtypeLookup (table : List (Half × Byte)) (v : Half) : Option Byte :=
  match table with
  | [] => none
  | (k, d) :: rest => if k = v then some d else devtypeLookup rest v

/-- The code of an outcome kind, as `RX_KIND` and `diag_code` show it (R235). -/
def kindCode (k : Kind) : Nibble :=
  match k with
  | .ok => 0x0
  | .noData => 0x1
  | .timeout => 0x2
  | .truncated => 0x3
  | .overflow => 0x4
  | .checksumMismatch => 0x5
  | .unresolvedDeviceType => 0x6
  | .badLength => 0x7
  | .refused => 0x8

/-- `diag_code` of an event (R262). -/
def diagCode (e : DiagEvent) : Nibble :=
  match e with
  | .timeoutEvt => 0x2
  | .fail k _ => kindCode k
  | .refused _ => 0x8
  | .resync _ => 0x9
  | .frameTx _ _ _ => 0xA
  | .frameRx _ _ _ => 0xB

/-- `diag_data` of an event (R262). -/
def diagData (e : DiagEvent) : Half :=
  match e with
  | .timeoutEvt => 0
  | .fail _ d => d
  | .refused d => d
  | .resync k => k.setWidth 16
  | .frameTx _ _ ck => ck
  | .frameRx _ ckWire _ => ckWire

/-- `RX_KIND` as the host reads it (R25, R43). -/
def portRxKind (s : State) : Nibble := kindCode s.rxKind

/-- `Q_VALUE` as the host reads it, an int16 (R33, R126, R200). -/
def portQValue (s : State) : Int := s.qValue.toInt

/-- The output `tp_rx_avail`'s source and the input `tp_rx_unit`: the head of `rxq` (R55). -/
def portRxUnit (s : State) : Option LineUnit := s.rxq.head?

/-- `{op, rsvd, port}` of a refused word (R262). -/
def refusedData (w : CmdWord) : Half := cmdOp w ++ cmdRsvd w ++ cmdPort w

end Sys2Proof.Machine
end

