-- ==== Sys2Proof/Machine/Ops.lean ====
section
/-! DEFINITION. The named operations: byte arrays, the Transport primitives and the clock (spec 20_memory.md), the
diagnostic sink, command acceptance and refusal, the terminal outcome sequence that takes the place of an exception
(60_exceptions.md R244), the end of an operation, and reset (70_reset_and_hazards.md). -/

namespace Sys2Proof.Machine

/-- Sequencing: a fault or a refusal stops. -/
def andThen (o : Out) (f : State → Out) : Out :=
  match o with
  | .next s => f s
  | .fault r => .fault r
  | .refused r => .refused r

/-! ### The byte arrays -/

/-- The canonical form: indices strictly rising. -/
abbrev Memory.wf (m : Memory) : Prop := m.Pairwise fun x y => x.1 < y.1

/-- The byte written last at index `i`, if any. -/
def Memory.read (m : Memory) (i : Nat) : Option Byte :=
  match m with
  | [] => none
  | (j, b) :: rest => if i = j then some b else Memory.read rest i

/-- Write one byte. -/
def Memory.write (m : Memory) (i : Nat) (b : Byte) : Memory :=
  match m with
  | [] => [(i, b)]
  | (j, c) :: rest =>
    if i < j then (i, b) :: (j, c) :: rest
    else if i = j then (i, b) :: rest
    else (j, c) :: Memory.write rest i b

/-- Write a list of bytes from index `i` on. -/
def Memory.writeList (m : Memory) (i : Nat) (bs : List Byte) : Memory :=
  match bs with
  | [] => m
  | b :: rest => Memory.writeList (Memory.write m i b) (i + 1) rest

/-- The contents of a space. -/
def spaceMemory (s : State) (sp : Space) : Memory :=
  match sp with
  | .buf => s.buf
  | .txp => s.txp
  | .rxp => s.rxp

/-- The bytes of a space (R60). -/
def spaceSize (c : Params) (sp : Space) : Nat :=
  match sp with
  | .buf => c.bufCap
  | .txp => c.maxPayload
  | .rxp => c.maxPayload

/-- What an index holds: the byte written last, or the free byte it has held since reset (R18, R271; log entry 3).
The one definition of what an unlisted index reads as. -/
def byteAt (s : State) (sp : Space) (i : Nat) : Byte :=
  match (spaceMemory s sp).read i with
  | some b => b
  | none => Config.unwrittenByte s.epoch sp i

/-- The bytes at indices `from`, …, `from + n - 1`. -/
def bytesAt (s : State) (sp : Space) (start n : Nat) : List Byte :=
  (List.range n).map fun k => byteAt s sp (start + k)

/-- `buf[i] <- b` (R18); an index outside BUF does not exist (R60, U1). -/
def storeBuf (i : Nat) (b : Byte) (s : State) : Out :=
  if i < spaceSize s.cfg .buf then .next { s with buf := s.buf.write i b } else .fault (.noSuchByte .buf i)

/-- `TXP[i] <- b` (R18, R185). -/
def storeTxp (i : Nat) (b : Byte) (s : State) : State := { s with txp := s.txp.write i b }

/-! ### The Transport, the clock and the diagnostic sink -/

/-- `TP.write_unit(u)`: always accepted (R75). -/
def writeUnit (u : LineUnit) (s : State) : State := { s with txq := s.txq ++ [u] }

/-- `diag(e)` (R262). -/
def emit (e : DiagEvent) (s : State) : State := { s with diagLog := s.diagLog ++ [e] }

/-- `diag(FAIL(kind))` with its `diag_data` (R262). -/
def emitFail (k : Kind) (d : Half) (s : State) : State := emit (.fail k d) s

/-- The next entry of the environment script (R284); none left is a quiet environment (log entry 4). -/
def nextMove (s : State) : EnvMove :=
  match s.script with
  | [] => EnvMove.quiet
  | m :: _ => m

/-- The environment acts before a step: units arrive at the tail of `rxq`, the clock advances modulo `2 ^ CLOCK_W`
(R50, R52, R82, R141). -/
def environmentActs (s : State) : State :=
  { s with
    script := s.script.tail
    rxq := s.rxq ++ (nextMove s).arrivals
    now := BitVec.ofNat 32 ((s.now.toNat + (nextMove s).ticks) % 2 ^ s.cfg.clockW) }

/-! ### Commands: acceptance, refusal, end of operation -/

/-- A refused command: `cmd_refused` pulses and the REFUSED event is emitted; nothing else changes (R243). -/
def refuse (w : CmdWord) (s : State) : State :=
  emit (.refused (refusedData w)) { s with refusedPulses := s.refusedPulses + 1 }

/-- An accepted command: the fields are latched and `busy <- 1` (R38, R243). -/
def accept (w : CmdWord) (s : State) : State :=
  { s with curOp := cmdOp w, opPort := cmdPort w, opA := cmdA w, opB := cmdB w, busy := true }

/-- `busy <- 0`: the end of an operation (R283), and all there is of a return from a failure (R249). -/
def endOp (s : State) : State := { s with busy := false }

/-! ### The terminal outcome sequence -/

/-- `raise Kind`: `RX_KIND <- Kind`, then `cp <- D_OFF` (R159, R244). The raising rule has already reset the buffer
and emitted the event; handing the kind over is `deliver`. -/
def raiseKind (k : Kind) (s : State) : State := { s with rxKind := k, cp := .dOff }

/-! ### Reset -/

/-- `rst = 1` sampled: the block's own state takes its reset values, the environment's is left alone (R270 to R273). -/
def resetBlock (s : State) : State :=
  { State.resetOf s.cfg with
    rxq := s.rxq
    txq := s.txq
    now := s.now
    diagLog := s.diagLog
    refusedPulses := s.refusedPulses
    script := s.script
    hostq := s.hostq
    epoch := s.epoch + 1 }

end Sys2Proof.Machine
end

