-- ==== Sys2Proof/Machine/Transmit.lean ====
section
/-! DEFINITION. The frame encoder as hardware performs it, one unit a step (spec 41_encode.md R131). -/

namespace Sys2Proof.Machine

/-- Start a run of the encoder (R131). -/
def startFrame (port : Byte) (payload : List Byte) (s : State) : State :=
  { s with enc := some { port := port, payload := payload, stage := .portUnit, acc := 0 } }

/-- The stage that follows when `todo` is what is left of the payload (R131). -/
def stageFor (todo : List Byte) : EncStage :=
  match todo with
  | [] => .checksumHigh
  | b :: rest => .payloadUnit b rest

/-- After the last unit: SEND and SEND_RSP end, a request goes on to S0 (R181, R194, R195, R224). -/
def frameSent (s : State) : State := if isRequestOp s.curOp then s else endOp s

/-- One `TP.write_unit` of R131, with the accumulation of its byte. -/
def encodeTick (r : EncRun) (s : State) : State :=
  match r.stage with
  | .portUnit =>
    writeUnit (markUnit r.port)
      { s with enc := some { r with stage := stageFor r.payload, acc := r.port.setWidth 16 } }
  | .payloadUnit b rest =>
    writeUnit (plainUnit b) { s with enc := some { r with stage := stageFor rest, acc := checksumAdd r.acc b } }
  | .checksumHigh => writeUnit (plainUnit (highByte r.acc)) { s with enc := some { r with stage := .checksumLow } }
  | .checksumLow =>
    frameSent (emit (.frameTx r.port r.payload r.acc) (writeUnit (plainUnit (lowByte r.acc)) { s with enc := none }))

end Sys2Proof.Machine
end

