-- ==== Sys2Proof/Machine/Controller.lean ====
section
/-! DEFINITION. The controller request/response arbiter (spec 44_controller.md): sending a request, the wait loop, the
resolution of a request and the result of each request command. -/

namespace Sys2Proof.Machine

/-- Start of a decode attempt: `cursor <- 0; cp <- D_BEGIN` (R142). -/
def startAttempt (s : State) : State := { s with cursor := 0, cp := .dBegin, s1Seen := false }

/-- REQUEST, sending (R194). -/
def startRequest (register parameter : Half) (port : Byte) (s : State) : State :=
  startFrame port (requestPayload register parameter) s

/-- The register of the `i`-th sub-query of GET_REVISION (R203). -/
def revisionRegister (c : Params) (i : Fin 3) : Half :=
  match i with
  | 0 => c.revRegA
  | 1 => c.revRegB
  | 2 => c.revRegC

/-- `val[i] <- v` (R203). -/
def setVal (i : Fin 3) (v : Half) (s : State) : State :=
  match i with
  | 0 => { s with val0 := v }
  | 1 => { s with val1 := v }
  | 2 => { s with val2 := v }

/-- Sub-query `i` of GET_REVISION begins (R203). -/
def startSubQuery (i : Fin 3) (s : State) : State :=
  startRequest (revisionRegister s.cfg i) 0 s.opPort { s with revIdx := i }

/-- The end of QUERY (R200). -/
def queryResult (r : Resolution) (s : State) : State :=
  match r with
  | .success v => endOp { s with qValue := v }
  | _ => endOp { s with qValue := 0xFFFF }

/-- The end of CONTROL (R201). -/
def controlResult (r : Resolution) (s : State) : State :=
  match r with
  | .success _ => endOp { s with cOk := true }
  | _ => endOp { s with cOk := false }

/-- The end of SCAN (R202). -/
def scanResult (r : Resolution) (s : State) : State :=
  match r with
  | .success v =>
    match devtypeLookup s.cfg.devtypeTable v with
    | some d => endOp { s with sDevtype := d }
    | none => endOp (emitFail .unresolvedDeviceType v { s with sDevtype := 0 })
  | _ => endOp { s with sDevtype := 0 }

/-- All three sub-queries of GET_REVISION succeeded: the four results are written together (R203). -/
def revisionDone (s : State) : State :=
  endOp { s with revA := s.val0, revB := s.val1, revC := s.val2, revOk := true }

/-- A sub-query of GET_REVISION failed: total failure, the later ones are not sent (R203). -/
def revisionFailed (s : State) : State :=
  endOp { s with revA := 0xFFFF, revB := 0xFFFF, revC := 0xFFFF, revOk := false }

/-- The end of one sub-query of GET_REVISION (R203). -/
def revisionResult (r : Resolution) (s : State) : State :=
  match r with
  | .success v =>
    match s.revIdx with
    | 0 => startSubQuery 1 (setVal 0 v s)
    | 1 => startSubQuery 2 (setVal 1 v s)
    | 2 => revisionDone (setVal 2 v s)
  | _ => revisionFailed s

/-- The resolution is handed to the command in progress (R200 to R203). -/
def commandResult (r : Resolution) (s : State) : State :=
  if s.curOp = opQuery then queryResult r s
  else if s.curOp = opControl then controlResult r s
  else if s.curOp = opScan then scanResult r s
  else revisionResult r s

/-- `RESOLVED(r) → IDLE`, always in the same step (R31, R204). -/
def leaveResolved (s : State) : State :=
  match s.ctl with
  | .resolved r => commandResult r { s with ctl := .idle }
  | .idle => s
  | .sent => s

/-- `ctl_state <- RESOLVED(r)`, `ctl_state <- IDLE`, return `r` to the command (R196). -/
def concludeRequest (r : Resolution) (s : State) : State := leaveResolved { s with ctl := .resolved r }

/-- `resolve(k)` for an attempt that ended OK (R197). -/
def resolveOk (s : State) : State :=
  if s.rxLen = 2 then concludeRequest (.success (be16Unpack (byteAt s .rxp 0) (byteAt s .rxp 1))) s
  else concludeRequest .badLength (emitFail .badLength (s.rxLen.setWidth 16) s)

/-- What the wait loop does with the outcome of an attempt: NO_DATA is polled past (S6 comes next), every other
outcome resolves the request (R196, R197). The last three kinds are no outcome of an attempt (R25, R241 to R243);
they are listed to make the function total, and resolve as failures. -/
def requestOutcome (k : Kind) (s : State) : State :=
  match k with
  | .noData => s
  | .ok => resolveOk s
  | .timeout => concludeRequest .timeout s
  | .truncated => concludeRequest .truncated s
  | .overflow => concludeRequest .overflow s
  | .checksumMismatch => concludeRequest .checksumError s
  | .unresolvedDeviceType => concludeRequest .badLength s
  | .badLength => concludeRequest .badLength s
  | .refused => concludeRequest .badLength s

/-- REQUEST, entering SENT: S0, then the first attempt of the wait loop (R195, R196). -/
def enterSent (s : State) : State := startAttempt { s with ctl := .sent, tReq := s.now }

/-- S6, after an attempt that ended NO_DATA (R196). -/
def pollDeadline (s : State) : State :=
  if deadlinePassed s.cfg s.tReq s.now s.timeout then concludeRequest .timeout (emit .timeoutEvt s)
  else startAttempt s

/-- The controller between two attempts, by `ctl_state` (R204). -/
def controllerTick (s : State) : State :=
  match s.ctl with
  | .idle => enterSent s
  | .sent => pollDeadline s
  | .resolved _ => leaveResolved s

end Sys2Proof.Machine
end

