-- ==== Sys2Proof/Machine/Receive.lean ====
section
/-! DEFINITION. The receive state machine: one decode attempt, step by step (spec 42_decode.md), and the operation that
an outcome is handed to (43_portchannel.md R183, 44_controller.md R197, 45_device.md R221). -/

namespace Sys2Proof.Machine

/-- The end of RECV_REQ (R221). -/
def recvReqResult (k : Kind) (s : State) : State :=
  if k = .ok then
    if s.rxLen = 4 then
      endOp { s with
        reqPort := s.rxPort
        reqRegister := be16Unpack (byteAt s .rxp 0) (byteAt s .rxp 1)
        reqParameter := be16Unpack (byteAt s .rxp 2) (byteAt s .rxp 3)
        reqOk := true }
    else endOp (emitFail .badLength (s.rxLen.setWidth 16) { s with reqOk := false })
  else endOp { s with reqOk := false }

/-- The outcome of an attempt goes to the operation that ran it (R159, R244). -/
def deliver (k : Kind) (s : State) : State :=
  if isRequestOp s.curOp then requestOutcome k s
  else if s.curOp = opRecvReq then recvReqResult k s
  else endOp s

/-- The terminal outcome sequence from `raise` on (R244). -/
def endAttempt (k : Kind) (s : State) : State := deliver k (raiseKind k s)

/-- Step 1, S1 (R143). -/
def testAvailable (s : State) : State :=
  if !unitsAvailable s && s.cursor == 0 then endAttempt .noData s else { s with s1Seen := true }

/-- Step 2, entry, S2 (R144). -/
def recordStart (s : State) : State := { s with tStart := s.now, cp := .dLoop, s1Seen := false }

/-- Step 2a, S3 (R145). -/
def testDeadline (s : State) : State :=
  if deadlinePassed s.cfg s.tStart s.now s.timeout then
    endAttempt .timeout (emit .timeoutEvt { s with cursor := 0 })
  else { s with cp := .dRead }

/-- Steps 2c and 2e for a marked unit: start of frame, or resynchronization (R148, R149, R151). -/
def storeStart (b : Byte) (s : State) : Out :=
  andThen (storeBuf 0 b (if s.cursor = 0 then s else emit (.resync s.cursor) s)) fun s =>
    .next { s with cursor := 1, cp := .dEof }

/-- Steps 2d and 2e for an unmarked unit: the bounds check, then the append (R150). -/
def storeData (b : Byte) (s : State) : Out :=
  if bufferFull s then .next (endAttempt .overflow (emitFail .overflow 0 { s with cursor := 0 }))
  else
    andThen (storeBuf s.cursor.toNat b s) fun s => .next { s with cursor := s.cursor + 1, cp := .dEof }

/-- Steps 2c and 2d: the marker bit alone decides (R147). -/
def storeUnit (u : LineUnit) (s : State) : Out :=
  if isMarked u then storeStart (stripUnit u) s else storeData (stripUnit u) s

/-- Step 2b, S4; the `none` arm goes back to step 2a (R146). -/
def readUnit (s : State) : Out :=
  match s.rxq with
  | [] => .next { s with cp := .dLoop }
  | u :: rest => storeUnit u { s with rxq := rest }

/-- Step 2f, S5 (R152). -/
def testGap (s : State) : State := { s with cp := if frameComplete s then .dFinish else .dLoop }

/-- Step 3 (R153): fewer than 3 bytes. -/
def failTruncated (s : State) : State :=
  endAttempt .truncated (emitFail .truncated (s.cursor.setWidth 16) { s with cursor := 0 })

/-- The result latch on OK (R158). -/
def latchFrame (port : Byte) (payload : List Byte) (s : State) : Out :=
  if payload.length ≤ spaceSize s.cfg .rxp then
    .next { s with
      rxPort := port
      rxLen := BitVec.ofNat 8 payload.length
      rxp := s.rxp.writeList 0 payload }
  else .fault (.noSuchByte .rxp (spaceSize s.cfg .rxp))

/-- Steps 5 and 6 for a frame whose fields have been split: recompute, reset the buffer, compare on all 16 bits,
latch or fail (R156 to R159). -/
def finishFrame (port : Byte) (payload : List Byte) (ckWire : Half) (s : State) : Out :=
  let actual := checksum port payload
  let s1 := emit (.frameRx (port :: (payload ++ be16Pack ckWire)) ckWire actual) { s with cursor := 0 }
  if ckWire = actual then andThen (latchFrame port payload s1) fun s => .next (endAttempt .ok s)
  else .next (endAttempt .checksumMismatch (emitFail .checksumMismatch actual s1))

/-- The bytes collected in the attempt, `buf[0 .. cursor-1]`. -/
def collectedBytes (s : State) : List Byte := bytesAt s .buf 0 s.cursor.toNat

/-- Step 4 (R155): the split of `n >= 3` collected bytes. -/
def splitAndFinish (s : State) : Out :=
  let n := s.cursor.toNat
  finishFrame (byteAt s .buf 0) (bytesAt s .buf 1 (n - 3))
    (be16Unpack (byteAt s .buf (n - 2)) (byteAt s .buf (n - 1))) s

/-- Steps 3 to 6, at `cp = D_FINISH` (R153 to R159). -/
def finishAttempt (s : State) : Out :=
  if spaceSize s.cfg .buf < s.cursor.toNat then .fault (.noSuchByte .buf (s.cursor.toNat - 1))
  else if tooShort s then .next (failTruncated s)
  else splitAndFinish s

end Sys2Proof.Machine
end

