-- ==== Sys2Proof/Machine/Operation.lean ====
section
/-! DEFINITION. The block as one agent stepping through its control points (spec 00_scope.md R16, 10_state.md R28,
42_decode.md R160, 44_controller.md R204), and a command as a whole operation from acceptance to the fall of `busy`
(60_exceptions.md R243, 70_reset_and_hazards.md R283). -/

namespace Sys2Proof.Machine

/-- `cp = D_OFF` inside an operation whose encoder is not running: the controller is between two attempts (R204).
No other operation is ever there (`Safety.BlockInv`); it would be over. -/
def betweenAttempts (s : State) : State := if isRequestOp s.curOp then controllerTick s else endOp s

/-- One action of the busy block: the encoder if it is sending, else the decode machine at its control point, else
the controller (R28, R131, R160, R204). -/
def act (s : State) : Out :=
  match s.enc with
  | some r => .next (encodeTick r s)
  | none =>
    match s.cp with
    | .dOff => .next (betweenAttempts s)
    | .dBegin => .next (if s.s1Seen then recordStart s else testAvailable s)
    | .dLoop => .next (testDeadline s)
    | .dRead => readUnit s
    | .dEof => .next (testGap s)
    | .dFinish => finishAttempt s

/-- A command presented while `busy = 1` is refused and does not disturb the operation in progress (R243). -/
def refusePresented (m : EnvMove) (s : State) : State :=
  match m.present with
  | none => s
  | some w => refuse w s

/-- One step of the busy block: the environment acts, then `rst` is sampled, then a presented command is refused,
then the block performs one action (R141, R243, R270). -/
def tick (s : State) : Out :=
  if (nextMove s).rst then .next (resetBlock (environmentActs s))
  else act (refusePresented (nextMove s) (environmentActs s))

/-- The operation can only poll: an attempt has just ended NO_DATA, the deadline has not passed, no unit is waiting
and the environment does nothing more. R294: such a request never ends. -/
def waitsOnSilence (s : State) : Bool :=
  s.script.isEmpty && s.rxq.isEmpty && s.enc.isNone && s.cp == .dOff && s.ctl == .sent &&
    !deadlinePassed s.cfg s.tReq s.now s.timeout

/-- The operation has ended, or waits for an environment that does nothing more. -/
def atRest (s : State) : Bool := !s.busy || waitsOnSilence s

/-- Up to `k` steps of the block, until it is at rest. -/
def runSteps (k : Nat) (s : State) : Out :=
  match k with
  | 0 => .next s
  | k + 1 => if atRest s then .next s else andThen (tick s) (runSteps k)

/-- The units waiting and those the script will still bring. -/
def unitsToCome (s : State) : Nat := s.rxq.length + (s.script.map fun m => m.arrivals.length).sum

/-- More steps than any operation takes: two for each entry of the script, three for each unit, and the steps of the
frames sent and of the attempts (log entry 5). -/
def stepBound (s : State) : Nat := 2 * s.script.length + 3 * unitsToCome s + 300

/-- The operation in progress runs until it is at rest. -/
def runOperation (s : State) : Out := runSteps (stepBound s) s

/-- A presented command: refused, or accepted and run (R243, R283). `first` is the first action of its pseudocode. -/
def perform (w : CmdWord) (first : State → State) (s : State) : Out :=
  if refuses s.cfg s.busy w then .next (refuse w s) else runOperation (first (accept w s))

end Sys2Proof.Machine
end

