-- ==== Sys2Proof/Machine/ChannelCommands.lean ====
section
/-! DEFINITION. The meanings of SEND, RECEIVE and LOADP (spec 43_portchannel.md). -/

namespace Sys2Proof.Machine

/-- SEND: the encoder runs on `(op_port, TXP[0 .. L-1])`; refused when `L > MAX_PAYLOAD` (R181, R182). -/
def execSend (port : Byte) (a b : Half) (s : State) : Out :=
  perform (commandWord opSend 0 port a b)
    (fun s => startFrame s.opPort (bytesAt s .txp 0 (lengthOperand s.opA)) s) s

/-- RECEIVE: one decode attempt (R183). -/
def execReceive (port : Byte) (a b : Half) (s : State) : Out :=
  perform (commandWord opReceive 0 port a b) startAttempt s

/-- LOADP: `TXP[index] <- byte`; refused when `index >= MAX_PAYLOAD` (R185). -/
def execLoadp (port : Byte) (a b : Half) (s : State) : Out :=
  perform (commandWord opLoadp 0 port a b)
    (fun s => endOp (storeTxp (indexOperand s.opA) (byteOperand s.opB) s)) s

end Sys2Proof.Machine
end

