-- ==== Sys2Proof/Machine/ControllerCommands.lean ====
section
/-! DEFINITION. The meanings of SET_TIMEOUT, QUERY, CONTROL, SCAN and GET_REVISION (spec 44_controller.md). -/

namespace Sys2Proof.Machine

/-- SET_TIMEOUT: `TIMEOUT <- {op_a, op_b}[CLOCK_W-1:0]` (R190). -/
def execSetTimeout (port : Byte) (a b : Half) (s : State) : Out :=
  perform (commandWord opSetTimeout 0 port a b)
    (fun s => endOp { s with timeout := msOperand s.cfg.clockW s.opA s.opB }) s

/-- QUERY: REQUEST(op_a, op_b, op_port), the value or the sentinel 0xFFFF in `Q_VALUE` (R200). -/
def execQuery (port : Byte) (a b : Half) (s : State) : Out :=
  perform (commandWord opQuery 0 port a b) (fun s => startRequest s.opA s.opB s.opPort s) s

/-- CONTROL: REQUEST(op_a, op_b, op_port), whether a valid response came in `C_OK` (R201). -/
def execControl (port : Byte) (a b : Half) (s : State) : Out :=
  perform (commandWord opControl 0 port a b) (fun s => startRequest s.opA s.opB s.opPort s) s

/-- SCAN: REQUEST(DEVTYPE_REG, 0, op_port), the device kind in `S_DEVTYPE` (R202). -/
def execScan (port : Byte) (a b : Half) (s : State) : Out :=
  perform (commandWord opScan 0 port a b) (fun s => startRequest s.cfg.devtypeReg 0 s.opPort s) s

/-- GET_REVISION: up to three requests, the three values and `REV_OK` (R203). -/
def execGetRevision (port : Byte) (a b : Half) (s : State) : Out :=
  perform (commandWord opGetRevision 0 port a b) (fun s => startSubQuery 0 s) s

end Sys2Proof.Machine
end

