-- ==== Sys2Proof/Machine/DeviceCommands.lean ====
section
/-! DEFINITION. The meanings of RECV_REQ and SEND_RSP (spec 45_device.md). -/

namespace Sys2Proof.Machine

/-- RECV_REQ: one decode attempt, the request in `REQ_*` (R221, R222). -/
def execRecvReq (port : Byte) (a b : Half) (s : State) : Out :=
  perform (commandWord opRecvReq 0 port a b) startAttempt s

/-- SEND_RSP: the encoder runs on `(op_port, be16_pack(op_b))` (R224). -/
def execSendRsp (port : Byte) (a b : Half) (s : State) : Out :=
  perform (commandWord opSendRsp 0 port a b) (fun s => startFrame s.opPort (be16Pack s.opB) s) s

end Sys2Proof.Machine
end

