-- ==== Sys2Proof/Machine/Frames.lean ====
section
/-! DEFINITION. The meanings of the frame rows (spec 42_decode.md R155 to R159): what the decode machine does at
`D_FINISH` with the frame it has collected. Sending a frame is the work of the commands (`startFrame`, log entry 9). -/

namespace Sys2Proof.Machine

/-- FRAME: the checksum is verified, the result latched and handed to the operation (R95, R155 to R159). -/
def execFrame (port : Byte) (payload : List Byte) (ck : Half) (s : State) : Out := finishFrame port payload ck s

/-- REQ_FRAME: a frame whose payload is a RequestPacket; RECV_REQ takes its fields (R97, R221). -/
def execReqFrame (port : Byte) (register parameter ck : Half) (s : State) : Out :=
  finishFrame port (requestPayload register parameter) ck s

/-- RSP_FRAME: a frame whose payload is a ResponsePacket; a request in its wait loop takes its value (R98, R197). -/
def execRspFrame (port : Byte) (value ck : Half) (s : State) : Out := finishFrame port (be16Pack value) ck s

end Sys2Proof.Machine
end

