-- ==== Sys2Proof/Machine/Reserved.lean ====
section
/-! DEFINITION. The meanings of the reserved command words (spec 30_encoding.md R103): each is refused, which is an
effect of the block (a pulse of `cmd_refused` and a REFUSED event, 60_exceptions.md R243), not a stop of the machine. -/

namespace Sys2Proof.Machine

/-- Reserved `op` 0x0 (R103, R243). -/
def execReservedOp0 (port : Byte) (a b : Half) (s : State) : Out :=
  .next (refuse (commandWord 0x0 0 port a b) s)

/-- Reserved `op` 0xB (R103, R243). -/
def execReservedOpB (port : Byte) (a b : Half) (s : State) : Out :=
  .next (refuse (commandWord 0xB 0 port a b) s)

/-- Reserved `op` 0xC (R103, R243). -/
def execReservedOpC (port : Byte) (a b : Half) (s : State) : Out :=
  .next (refuse (commandWord 0xC 0 port a b) s)

/-- Reserved `op` 0xD (R103, R243). -/
def execReservedOpD (port : Byte) (a b : Half) (s : State) : Out :=
  .next (refuse (commandWord 0xD 0 port a b) s)

/-- Reserved `op` 0xE (R103, R243). -/
def execReservedOpE (port : Byte) (a b : Half) (s : State) : Out :=
  .next (refuse (commandWord 0xE 0 port a b) s)

/-- Reserved `op` 0xF (R103, R243). -/
def execReservedOpF (port : Byte) (a b : Half) (s : State) : Out :=
  .next (refuse (commandWord 0xF 0 port a b) s)

/-- `rsvd` bit 0 set (R103, R243). -/
def execReservedRsvdBit0 (op rsvd : Nibble) (port : Byte) (a b : Half) (s : State) : Out :=
  .next (refuse (commandWord op rsvd port a b) s)

/-- `rsvd` bit 1 set (R103, R243). -/
def execReservedRsvdBit1 (op rsvd : Nibble) (port : Byte) (a b : Half) (s : State) : Out :=
  .next (refuse (commandWord op rsvd port a b) s)

/-- `rsvd` bit 2 set (R103, R243). -/
def execReservedRsvdBit2 (op rsvd : Nibble) (port : Byte) (a b : Half) (s : State) : Out :=
  .next (refuse (commandWord op rsvd port a b) s)

/-- `rsvd` bit 3 set (R103, R243). -/
def execReservedRsvdBit3 (op rsvd : Nibble) (port : Byte) (a b : Half) (s : State) : Out :=
  .next (refuse (commandWord op rsvd port a b) s)

end Sys2Proof.Machine
end

