-- ==== Sys2Proof/Machine/Units.lean ====
section
/-! DEFINITION. The meanings of the unit rows START and DATA (spec 42_decode.md R147 to R151): what the decode machine
does at `D_READ` with a unit it has taken from `rxq`. -/

namespace Sys2Proof.Machine

/-- START: start of frame in IDLE (R148), resynchronization in COLLECTING (R149). -/
def execStart (b : Byte) (s : State) : Out := storeStart b s

/-- DATA: the byte is appended, or OVERFLOW is raised (R150, R162). -/
def execData (b : Byte) (s : State) : Out := storeData b s

end Sys2Proof.Machine
end

