-- ==== Sys2Proof/Machine/Dispatch.lean ====
section
/-! DEFINITION. One arm per instruction. -/

namespace Sys2Proof.Machine

def exec (i : Instr) (s : State) : Host.Outcome State Fault Refusal :=
  match i with
  | .start b => Sys2Proof.Machine.execStart b s
  | .data b => Sys2Proof.Machine.execData b s
  | .frame p d ck => Sys2Proof.Machine.execFrame p d ck s
  | .reqFrame p r a ck => Sys2Proof.Machine.execReqFrame p r a ck s
  | .rspFrame p v ck => Sys2Proof.Machine.execRspFrame p v ck s
  | .setTimeout p a b => Sys2Proof.Machine.execSetTimeout p a b s
  | .query p a b => Sys2Proof.Machine.execQuery p a b s
  | .control p a b => Sys2Proof.Machine.execControl p a b s
  | .scan p a b => Sys2Proof.Machine.execScan p a b s
  | .getRevision p a b => Sys2Proof.Machine.execGetRevision p a b s
  | .recvReq p a b => Sys2Proof.Machine.execRecvReq p a b s
  | .sendRsp p a b => Sys2Proof.Machine.execSendRsp p a b s
  | .send p a b => Sys2Proof.Machine.execSend p a b s
  | .receive p a b => Sys2Proof.Machine.execReceive p a b s
  | .loadp p a b => Sys2Proof.Machine.execLoadp p a b s
  | .reservedOp0 p a b => Sys2Proof.Machine.execReservedOp0 p a b s
  | .reservedOpB p a b => Sys2Proof.Machine.execReservedOpB p a b s
  | .reservedOpC p a b => Sys2Proof.Machine.execReservedOpC p a b s
  | .reservedOpD p a b => Sys2Proof.Machine.execReservedOpD p a b s
  | .reservedOpE p a b => Sys2Proof.Machine.execReservedOpE p a b s
  | .reservedOpF p a b => Sys2Proof.Machine.execReservedOpF p a b s
  | .reservedRsvdBit0 op r p a b => Sys2Proof.Machine.execReservedRsvdBit0 op r p a b s
  | .reservedRsvdBit1 op r p a b => Sys2Proof.Machine.execReservedRsvdBit1 op r p a b s
  | .reservedRsvdBit2 op r p a b => Sys2Proof.Machine.execReservedRsvdBit2 op r p a b s
  | .reservedRsvdBit3 op r p a b => Sys2Proof.Machine.execReservedRsvdBit3 op r p a b s

end Sys2Proof.Machine
end

