-- ==== Sys2Proof/Machine/Fetch.lean ====
section
/-! DEFINITION. Where the block meets its next instruction (spec 20_memory.md R66): the command word the host presents
while `busy = 0`, the unit at the head of `rxq` at `D_READ`, the collected frame at `D_FINISH`. -/

namespace Sys2Proof.Machine

/-- What a step finds to do once the environment has acted. -/
inductive Fetched where
  /-- An instruction, and the state it runs in. -/
  | instruction (i : Instr) (s : State)
  /-- An action of the busy block that takes no instruction. -/
  | action (s : State)
  /-- Nothing: the block is quiescent (R263, R283). -/
  | nothing (s : State)
  deriving DecidableEq, Repr

/-- The unit that S4 takes (R146). -/
def fetchUnit (s : State) : Fetched :=
  match s.rxq with
  | [] => .action s
  | u :: rest => .instruction (decodeUnit u) { s with rxq := rest }

/-- The frame collected when `D_FINISH` is reached (R152, R155). -/
def fetchFrame (s : State) : Fetched :=
  if spaceSize s.cfg .buf < s.cursor.toNat then .action s
  else
    match decodeBytes (collectedBytes s) with
    | .ok i => .instruction i s
    | .error _ => .action s

/-- A busy block. -/
def fetchBusy (s : State) : Fetched :=
  match s.enc with
  | some _ => .action s
  | none =>
    match s.cp with
    | .dRead => fetchUnit s
    | .dFinish => fetchFrame s
    | .dOff => .action s
    | .dBegin => .action s
    | .dLoop => .action s
    | .dEof => .action s

/-- A block that is not busy: a word on `cmd_word`, else the next word of the waiting host (R243, R284). -/
def fetchCommand (m : EnvMove) (s : State) : Fetched :=
  match m.present with
  | some w => .instruction (decodeCommand w) s
  | none =>
    match s.hostq with
    | [] => .nothing s
    | w :: rest => .instruction (decodeCommand w) { s with hostq := rest }

/-- What the step finds after the environment's move `m`. -/
def fetch (m : EnvMove) (s : State) : Fetched :=
  if s.busy then fetchBusy (refusePresented m s) else fetchCommand m s

/-- The next entry of the script without its `rst` and presented command, so that the next step fetches. -/
def calmScript (script : List EnvMove) : List EnvMove :=
  match script with
  | [] => []
  | m :: rest => { m with rst := false, present := none } :: rest

/-- A command word where the idle block takes it: next in the host's list. -/
def placeCommand (w : CmdWord) (s : State) : State :=
  { s with busy := false, hostq := w :: s.hostq, script := calmScript s.script }

/-- A unit where the decode machine takes it: the head of `rxq`, with a RECEIVE at `D_READ`. -/
def placeUnit (u : LineUnit) (s : State) : State :=
  { s with
    busy := true
    curOp := opReceive
    enc := none
    cp := .dRead
    rxq := u :: s.rxq
    script := calmScript s.script }

/-- The command that consumes a frame of the given length: RECV_REQ a REQ_FRAME, QUERY an RSP_FRAME, RECEIVE every
other (R97, R98). -/
def consumerOf (units : Nat) : Nibble := if units = 7 then opRecvReq else if units = 5 then opQuery else opReceive

/-- A frame where the decode machine takes it: collected in `buf`, at `D_FINISH` of the command that consumes it. -/
def placeFrame (us : List LineUnit) (s : State) : State :=
  { s with
    busy := true
    curOp := consumerOf us.length
    ctl := if isRequestOp (consumerOf us.length) then .sent else .idle
    enc := none
    cp := .dFinish
    cursor := BitVec.ofNat 8 us.length
    buf := s.buf.writeList 0 (us.map stripUnit)
    script := calmScript s.script }

/-- The code placed where the next step fetches it. -/
def placeCode (c : Code) (s : State) : State :=
  match c with
  | .unit u => placeUnit u s
  | .frame us => placeFrame us s
  | .command w => placeCommand w s

/-- The instruction of `nbits` table bits `w` placed where the next step fetches it; a number of bits that is no row's
places nothing. -/
def placeTableWord (s : State) (nbits w : Nat) : State :=
  match tableCode nbits w with
  | none => s
  | some c => placeCode c s

end Sys2Proof.Machine
end

