-- ==== Sys2Proof/Machine/Step.lean ====
section
/-! DEFINITION. One step of the machine. -/

namespace Sys2Proof.Machine

/-- The environment acts; `rst` is sampled (a command presented with it is ignored, R272); then the block runs the
instruction it meets, or performs one action, or does nothing (R141, R263, R270). -/
def step (s : State) : Host.Outcome State Fault Refusal :=
  if (nextMove s).rst then .next (resetBlock (environmentActs s))
  else
    match fetch (nextMove s) (environmentActs s) with
    | .instruction i s => exec i s
    | .action s => act s
    | .nothing s => .next s

/-- `s` with the instruction of the given table bits stored where `step` fetches next (log entry 11). -/
def State.withFetchWord (s : State) (nbits w : Nat) : State := placeTableWord s nbits w

end Sys2Proof.Machine
end

