-- ==== Sys2Proof/Machine/DecodeQueue.lean ====
section
/-! DEFINITION. The big-step form of a decode attempt in a quiet environment, written from spec 42_decode.md R161 on its
own, over lists, without the control points: what the step-by-step machine is compared with. -/

namespace Sys2Proof.Machine

/-- What `decode_queue` returns: the outcome, the result it latches when the outcome is OK, the units left, and the
events of R166. -/
structure QueueResult where
  kind : Kind
  port : Byte
  payload : List Byte
  rest : List LineUnit
  events : List DiagEvent
  deriving DecidableEq, Repr

/-- The bytes collected, or none on overflow; the units left; the RESYNC events. -/
structure Collected where
  bytes : Option (List Byte)
  rest : List LineUnit
  events : List DiagEvent
  deriving DecidableEq, Repr

/-- The loop of R161: `got` are the bytes collected so far. A START leaves one byte, which is below MAX_LEN (R13), so
the loop goes on. -/
def collect (c : Params) (got : List Byte) (q : List LineUnit) : Collected :=
  match q with
  | [] => { bytes := some got, rest := [], events := [] }
  | u :: rest =>
    if isMarked u then
      let r := collect c [stripUnit u] rest
      { r with events := (if got = [] then [] else [DiagEvent.resync (BitVec.ofNat 8 got.length)]) ++ r.events }
    else if got.length = c.bufCap then { bytes := none, rest := rest, events := [] }
    else if c.maxLen ≤ got.length + 1 then { bytes := some (got ++ [stripUnit u]), rest := rest, events := [] }
    else collect c (got ++ [stripUnit u]) rest

/-- The bytes of a frame between port byte and checksum (R155). -/
def payloadOf (bytes : List Byte) : List Byte := (bytes.drop 1).take (bytes.length - 3)

/-- The received checksum, the last two bytes (R155). -/
def checksumOf (bytes : List Byte) : Half :=
  be16Unpack (bytes.getD (bytes.length - 2) 0) (bytes.getD (bytes.length - 1) 0)

/-- `decode_queue(q)` (R161), with the events of R166. -/
def decodeQueue (c : Params) (q : List LineUnit) : QueueResult :=
  if q = [] then { kind := .noData, port := 0, payload := [], rest := [], events := [] }
  else
    let r := collect c [] q
    match r.bytes with
    | none =>
      { kind := .overflow, port := 0, payload := [], rest := r.rest, events := r.events ++ [.fail .overflow 0] }
    | some bytes =>
      if bytes.length < 3 then
        { kind := .truncated, port := 0, payload := [], rest := r.rest
          events := r.events ++ [.fail .truncated (BitVec.ofNat 16 bytes.length)] }
      else
        let actual := checksum (bytes.getD 0 0) (payloadOf bytes)
        let frameEvent := DiagEvent.frameRx bytes (checksumOf bytes) actual
        if checksumOf bytes = actual then
          { kind := .ok, port := bytes.getD 0 0, payload := payloadOf bytes, rest := r.rest
            events := r.events ++ [frameEvent] }
        else
          { kind := .checksumMismatch, port := 0, payload := [], rest := r.rest
            events := r.events ++ [frameEvent, .fail .checksumMismatch actual] }

end Sys2Proof.Machine
end

