-- ==== Sys2Proof/WellFormed.lean ====
section
/-! DEFINITION. Which instruction terms the encodings of spec 30_encoding.md admit on an instance with given parameters. -/

namespace Sys2Proof

/-- The payload lengths that have a row of their own: RSP_FRAME (2 bytes) and REQ_FRAME (4 bytes) (R97, R98).
A FRAME term stands for every other length (log entry 9). -/
def hasOwnFrameRow (n : Nat) : Bool := n == 2 || n == 4

/-- The bits of `rsvd` below `k` are clear and bit `k` is set: which of the four rows of R111 stands for the word
(log entry 8). -/
def lowestRsvdBit (rsvd : Nibble) (k : Nat) : Bool :=
  rsvd.getLsbD k && (List.range k).all fun j => !rsvd.getLsbD j

/-- A unit is always well-formed (R94), and so is a command word whose `rsvd` is 0 (R100, R103). A frame is when its
payload fits and its checksum field is the checksum (R95). -/
def Instr.wellFormed (c : Params) : Instr → Bool
  | .start _ => true
  | .data _ => true
  | .frame p d ck => decide (d.length ≤ c.maxPayload) && !hasOwnFrameRow d.length && ck == Machine.checksum p d
  | .reqFrame p r a ck => decide (4 ≤ c.maxPayload) && ck == Machine.checksum p (Machine.requestPayload r a)
  | .rspFrame p v ck => decide (2 ≤ c.maxPayload) && ck == Machine.checksum p (Machine.be16Pack v)
  | .setTimeout _ _ _ => true
  | .query _ _ _ => true
  | .control _ _ _ => true
  | .scan _ _ _ => true
  | .getRevision _ _ _ => true
  | .recvReq _ _ _ => true
  | .sendRsp _ _ _ => true
  | .send _ _ _ => true
  | .receive _ _ _ => true
  | .loadp _ _ _ => true
  | .reservedOp0 _ _ _ => true
  | .reservedOpB _ _ _ => true
  | .reservedOpC _ _ _ => true
  | .reservedOpD _ _ _ => true
  | .reservedOpE _ _ _ => true
  | .reservedOpF _ _ _ => true
  | .reservedRsvdBit0 _ r _ _ _ => lowestRsvdBit r 0
  | .reservedRsvdBit1 _ r _ _ _ => lowestRsvdBit r 1
  | .reservedRsvdBit2 _ r _ _ _ => lowestRsvdBit r 2
  | .reservedRsvdBit3 _ r _ _ _ => lowestRsvdBit r 3

end Sys2Proof
end

