-- ==== Sys2Proof/Safety.lean ====
section
/-! DEFINITION. The terms in which claims are stated: the invariant of the block, premises on the environment, and
what an operation leaves unchanged. -/

namespace Sys2Proof.Safety

open Sys2Proof.Machine

/-- Between operations, right after reset or after any outcome (R245): `busy = 0`, `cp = D_OFF`, `ctl_state = IDLE`,
the encoder not running. -/
structure Quiescent (s : State) : Prop where
  notBusy : s.busy = false
  off : s.cp = .dOff
  idle : s.ctl = .idle
  noFrame : s.enc = none

/-- The environment does nothing during the coming steps (R161 "quiet"). -/
def QuietScript (s : State) : Prop := ∀ m ∈ s.script, m = EnvMove.quiet

/-- Nothing is appended to `rxq`, `rst` stays 0 and no word is presented during the coming steps; the clock may
advance in any way (the premises of R161 and R136 but for the timeout). -/
def NoArrivals (s : State) : Prop := ∀ m ∈ s.script, m.arrivals = [] ∧ m.rst = false ∧ m.present = none

/-- `rst` stays 0 during the coming steps. -/
def NoReset (s : State) : Prop := ∀ m ∈ s.script, m.rst = false

/-- The milliseconds by which the clock advances over the whole script. -/
def scriptTicks (s : State) : Nat := (s.script.map fun m => m.ticks).sum

/-- The state without the command word that the next entry of the script presents. -/
def withoutPresented (s : State) : State :=
  { s with
    script :=
      match s.script with
      | [] => []
      | m :: rest => { m with present := none } :: rest }

/-- No value of a clock register uses a bit above CLOCK_W (R24, R30, R32, R52). -/
structure ClocksFit (s : State) : Prop where
  timeout : s.timeout.toNat < 2 ^ s.cfg.clockW
  now : s.now.toNat < 2 ^ s.cfg.clockW
  tStart : s.tStart.toNat < 2 ^ s.cfg.clockW
  tReq : s.tReq.toNat < 2 ^ s.cfg.clockW

/-- Every byte array is in its canonical form and within its index range (R60). -/
structure ArraysFit (s : State) : Prop where
  bufForm : s.buf.wf
  txpForm : s.txp.wf
  rxpForm : s.rxp.wf
  bufRange : ∀ e ∈ s.buf, e.1 < s.cfg.bufCap
  txpRange : ∀ e ∈ s.txp, e.1 < s.cfg.maxPayload
  rxpRange : ∀ e ∈ s.rxp, e.1 < s.cfg.maxPayload

/-- Where the decode machine can be, and with how many bytes collected (R22, R23, R48, R151, R152, R164). -/
structure DecodeFits (s : State) : Prop where
  offEmpty : s.cp = .dOff → s.cursor = 0
  beginEmpty : s.cp = .dBegin → s.cursor = 0
  withinBuffer : s.cursor.toNat ≤ s.cfg.bufCap
  withinFrame : s.cursor.toNat ≤ s.cfg.maxLen
  waiting : s.cp = .dLoop ∨ s.cp = .dRead → s.cursor.toNat < s.cfg.maxLen
  stored : s.cp = .dEof ∨ s.cp = .dFinish → 1 ≤ s.cursor.toNat
  available : s.cp = .dLoop ∨ s.cp = .dRead ∨ s.s1Seen = true → s.rxq ≠ []
  s1AtBegin : s.s1Seen = true → s.cp = .dBegin

/-- An attempt, a frame being sent and a request in its wait loop belong to an operation that runs them (R28, R40,
R134, R140, R191, R245). -/
structure OperationFits (s : State) : Prop where
  quiescent : s.busy = false → s.cp = .dOff ∧ s.ctl = .idle ∧ s.enc = none
  shown : s.ctl = .idle ∨ s.ctl = .sent
  sentByRequest : s.ctl = .sent → isRequestOp s.curOp = true
  attempt : s.cp ≠ .dOff →
    (isRequestOp s.curOp = true ∧ s.ctl = .sent) ∨ s.curOp = opRecvReq ∨ s.curOp = opReceive
  sending : s.enc ≠ none → s.cp = .dOff ∧ s.ctl = .idle ∧
    (isRequestOp s.curOp = true ∨ s.curOp = opSend ∨ s.curOp = opSendRsp)
  between : s.busy = true → s.cp = .dOff → s.enc = none → isRequestOp s.curOp = true
  payloadFits : ∀ r, s.enc = some r → r.payload.length ≤ s.cfg.maxPayload

/-- The result registers of the decode machine hold what an attempt can leave in them (R25). -/
structure ResultFits (s : State) : Prop where
  kind : s.rxKind = .ok ∨ s.rxKind = .noData ∨ s.rxKind = .timeout ∨ s.rxKind = .truncated ∨
    s.rxKind = .overflow ∨ s.rxKind = .checksumMismatch
  len : s.rxLen.toNat ≤ s.cfg.maxPayload

/-- The invariant of the block. -/
structure BlockInv (s : State) : Prop where
  params : s.cfg.Valid
  clocks : ClocksFit s
  arrays : ArraysFit s
  decode : DecodeFits s
  operation : OperationFits s
  result : ResultFits s

/-- The controller result registers are unchanged (R33 to R36). -/
def KeepsController (s t : State) : Prop :=
  t.qValue = s.qValue ∧ t.cOk = s.cOk ∧ t.sDevtype = s.sDevtype ∧ t.revA = s.revA ∧ t.revB = s.revB ∧
    t.revC = s.revC ∧ t.revOk = s.revOk

/-- The device result registers are unchanged (R37). -/
def KeepsDevice (s t : State) : Prop :=
  t.reqOk = s.reqOk ∧ t.reqPort = s.reqPort ∧ t.reqRegister = s.reqRegister ∧ t.reqParameter = s.reqParameter

/-- `TIMEOUT`, the parameters and every byte of TXP are unchanged (R30, R39). -/
def KeepsChannel (s t : State) : Prop :=
  t.timeout = s.timeout ∧ t.cfg = s.cfg ∧ ∀ i, byteAt t .txp i = byteAt s .txp i

/-- The receive result registers, every byte of RXP, and the decode machine's own state with every byte of BUF are
unchanged (R21 to R27). -/
def KeepsReceive (s t : State) : Prop :=
  t.rxKind = s.rxKind ∧ t.rxPort = s.rxPort ∧ t.rxLen = s.rxLen ∧ (∀ i, byteAt t .rxp i = byteAt s .rxp i) ∧
    t.cursor = s.cursor ∧ t.cp = s.cp ∧ t.tStart = s.tStart ∧ (∀ i, byteAt t .buf i = byteAt s .buf i)

/-- The transients of a request and of GET_REVISION are unchanged (R31, R32, R36, R43). -/
def KeepsRequest (s t : State) : Prop :=
  t.ctl = s.ctl ∧ t.tReq = s.tReq ∧ t.revIdx = s.revIdx ∧ t.val0 = s.val0 ∧ t.val1 = s.val1 ∧ t.val2 = s.val2

/-- The command latch holds the given fields (R38). -/
def Latched (op : Nibble) (port : Byte) (a b : Half) (t : State) : Prop :=
  t.curOp = op ∧ t.opPort = port ∧ t.opA = a ∧ t.opB = b

/-- The response of a device on a quiet line: the script that leaves the block alone while a request is sent and S0
taken (8 steps), brings `us` before the first S1 of the wait loop, and leaves the block alone for `quietAfter` steps. -/
def answerScript (us : List LineUnit) (quietAfter : Nat) : List EnvMove :=
  List.replicate 8 EnvMove.quiet ++ { EnvMove.quiet with arrivals := us } :: List.replicate quietAfter EnvMove.quiet

/-- The units `us` are what the first attempt of the wait loop finds: they wait in `rxq` when the request begins, on a
quiet line (a stale frame counts, R198), or they arrive before the first S1. -/
def Answered (s : State) (us : List LineUnit) : Prop :=
  (QuietScript s ∧ s.rxq = us) ∨ (s.rxq = [] ∧ ∃ n, s.script = answerScript us n)

/-- The script under which no answer comes and the clock stands `t` milliseconds after S0 at the first S6. -/
def silenceScript (t : Nat) : List EnvMove :=
  List.replicate 9 EnvMove.quiet ++ [{ EnvMove.quiet with ticks := t }]

/-- The state without the operand fields of the command latch, which no host reads (R38, R54). -/
def forgetOperands (o : Out) : Out :=
  match o with
  | .next t => .next { t with opPort := 0, opA := 0, opB := 0 }
  | .fault r => .fault r
  | .refused r => .refused r

/-- The state with `l` and `u` before everything that `diag_log` and `txq` hold, and `n` more pulses counted. -/
def withEarlierOutput (l : List DiagEvent) (u : List LineUnit) (n : Nat) (s : State) : State :=
  { s with diagLog := l ++ s.diagLog, txq := u ++ s.txq, refusedPulses := n + s.refusedPulses }

/-- A function of the state applied to a next state. -/
def mapNext (f : State → State) (o : Out) : Out :=
  match o with
  | .next t => .next (f t)
  | .fault r => .fault r
  | .refused r => .refused r

/-- The effect of a refused word and nothing else (R243). -/
def onlyRefused (data : Half) (s : State) : State :=
  { s with refusedPulses := s.refusedPulses + 1, diagLog := s.diagLog ++ [.refused data] }

end Sys2Proof.Safety
end

