-- ==== Sys2Proof/Certificates/Slice0/Obligations.lean ====
section
/-! DEFINITION. The statements about the model, for the provers. -/

open Sys2Proof Sys2Proof.Machine Sys2Proof.Safety

/-! ### Encodings -/

/-- R111, R95, R97, R98, R100, R101: no bit of an encoding is dropped. Which of two rows that overlap in the table
stands for a word or a frame is the model's choice (log entries 8, 9). -/
def Obligations.DecodeUndoesEncode : Prop :=
  ∀ (c : Params) (i : Instr), i.wellFormed c = true → decode (encode i) = .ok i

/-- R111: every 48-bit word has one row, and the row's encoding is the word (which row, where the table's overlap, is the
model's choice, log entry 8). -/
def Obligations.CommandWordHasOneMeaning : Prop :=
  ∀ w : CmdWord, encode (decodeCommand w) = .command w ∧ ∀ c : Params, (decodeCommand w).wellFormed c = true

/-- R90 to R94: every unit is a START or a DATA by bit 8 alone, with its low byte as operand, and encodes back. -/
def Obligations.UnitHasOneMeaning : Prop :=
  ∀ u : LineUnit, encode (decodeUnit u) = .unit u ∧
    (u.getLsbD 8 = true → decodeUnit u = .start (BitVec.ofNat 8 u.toNat)) ∧
    (u.getLsbD 8 = false → decodeUnit u = .data (BitVec.ofNat 8 u.toNat))

/-- Words of 95_test_vectors.md T-CMD, T-ENC and of the reserved rows decode to the instructions they stand for. That a
unit is asked for with 16 bits is the host's convention (log entry 10). -/
def Obligations.WrittenOutWordsDecode : Prop :=
  decodeTableWord 48 0x100012345678 = some (.setTimeout 0x00 0x1234 0x5678) ∧
  decodeTableWord 48 0x200100080000 = some (.query 0x01 0x0008 0x0000) ∧
  decodeTableWord 48 0x3002003C0001 = some (.control 0x02 0x003C 0x0001) ∧
  decodeTableWord 48 0x7001000004D2 = some (.sendRsp 0x01 0x0000 0x04D2) ∧
  decodeTableWord 48 0x800200020000 = some (.send 0x02 0x0002 0x0000) ∧
  decodeTableWord 48 0xA000000100BB = some (.loadp 0x00 0x0001 0x00BB) ∧
  decodeTableWord 48 0xB00000000000 = some (.reservedOpB 0x00 0x0000 0x0000) ∧
  decodeTableWord 48 0x210100080000 = some (.reservedRsvdBit0 0x2 0x1 0x01 0x0008 0x0000) ∧
  decodeTableWord 16 0x1AA = some (.start 0xAA) ∧
  decodeTableWord 16 0x0D2 = some (.data 0xD2) ∧
  decode (.frame [0x105, 0x000, 0x005]) = .ok (.frame 0x05 [] 0x0005) ∧
  decode (.frame [0x101, 0x000, 0x008, 0x000, 0x000, 0x000, 0x009]) = .ok (.reqFrame 0x01 0x0008 0x0000 0x0009) ∧
  decode (.frame [0x101, 0x004, 0x0D2, 0x000, 0x0D7]) = .ok (.rspFrame 0x01 0x04D2 0x00D7)

/-- R103: a word with a reserved `op`, or with `rsvd` not 0 whatever its `op`, changes no state: one pulse, one event. -/
def Obligations.ReservedWordsAreRefused : Prop :=
  ∀ (w : CmdWord) (s : State),
    (cmdRsvd w ≠ 0 ∨ cmdOp w ∈ [0x0#4, 0xB#4, 0xC#4, 0xD#4, 0xE#4, 0xF#4]) →
    exec (decodeCommand w) s = .next (onlyRefused (cmdOp w ++ cmdRsvd w ++ cmdPort w) s)

/-- R103, R243, row by row: what each of the ten reserved rows does in every state. -/
def Obligations.ReservedRowsComplete : Prop :=
  ∀ (op rsvd : Nibble) (p : Byte) (a b : Half) (s : State),
    exec (.reservedOp0 p a b) s = .next (onlyRefused (0x0#4 ++ 0x0#4 ++ p) s) ∧
    exec (.reservedOpB p a b) s = .next (onlyRefused (0xB#4 ++ 0x0#4 ++ p) s) ∧
    exec (.reservedOpC p a b) s = .next (onlyRefused (0xC#4 ++ 0x0#4 ++ p) s) ∧
    exec (.reservedOpD p a b) s = .next (onlyRefused (0xD#4 ++ 0x0#4 ++ p) s) ∧
    exec (.reservedOpE p a b) s = .next (onlyRefused (0xE#4 ++ 0x0#4 ++ p) s) ∧
    exec (.reservedOpF p a b) s = .next (onlyRefused (0xF#4 ++ 0x0#4 ++ p) s) ∧
    exec (.reservedRsvdBit0 op rsvd p a b) s = .next (onlyRefused (op ++ rsvd ++ p) s) ∧
    exec (.reservedRsvdBit1 op rsvd p a b) s = .next (onlyRefused (op ++ rsvd ++ p) s) ∧
    exec (.reservedRsvdBit2 op rsvd p a b) s = .next (onlyRefused (op ++ rsvd ++ p) s) ∧
    exec (.reservedRsvdBit3 op rsvd p a b) s = .next (onlyRefused (op ++ rsvd ++ p) s)

/-! ### Arithmetic -/

/-- R228, R229: the converter as numbers, high byte first, and its two directions inverse. -/
def Obligations.ConverterIsBigEndian : Prop :=
  (∀ v : Half, be16Pack v = [BitVec.ofNat 8 (v.toNat / 256), BitVec.ofNat 8 (v.toNat % 256)]) ∧
  (∀ b0 b1 : Byte, (be16Unpack b0 b1).toNat = b0.toNat * 256 + b1.toNat) ∧
  (∀ v : Half, be16Unpack (highByte v) (lowByte v) = v) ∧
  (∀ b0 b1 : Byte, be16Pack (be16Unpack b0 b1) = [b0, b1])

/-- R120: `(port + Σ payload[i]) mod 65536`. -/
def Obligations.ChecksumIsTheSum : Prop :=
  ∀ (p : Byte) (d : List Byte), (checksum p d).toNat = (p.toNat + (d.map BitVec.toNat).sum) % 65536

/-- R124, first bullet: a frame that verifies, with one data bit of one of its bytes flipped, does not verify. -/
def Obligations.SingleBitFlipIsDetected : Prop :=
  ∀ (p : Byte) (d : List Byte) (ck : Half) (k : Nat), k < 8 → ck = checksum p d →
    (ck ≠ checksum (p ^^^ BitVec.twoPow 8 k) d) ∧
    (∀ i, i < d.length → ck ≠ checksum p (d.modify i fun b => b ^^^ BitVec.twoPow 8 k)) ∧
    (ck ^^^ BitVec.twoPow 16 k ≠ checksum p d) ∧
    (ck ^^^ BitVec.twoPow 16 (k + 8) ≠ checksum p d)

/-- R125: the checksum does not see the order of the payload bytes nor a zero byte put in or taken out. -/
def Obligations.ChecksumBlindSpots : Prop :=
  (∀ (p : Byte) (d e : List Byte), d.Perm e → checksum p d = checksum p e) ∧
  (∀ (p : Byte) (d e : List Byte), checksum p (d ++ 0#8 :: e) = checksum p (d ++ e))

/-- R256: `elapsed` is subtraction modulo `2 ^ CLOCK_W`, and the deadline test is unsigned and strict. -/
def Obligations.ElapsedIsModularSubtraction : Prop :=
  ∀ (c : Params) (t0 t1 timeout : Clock), c.Valid → t0.toNat < 2 ^ c.clockW → t1.toNat < 2 ^ c.clockW →
    (elapsed c.clockW t0 t1).toNat = (t1.toNat + (2 ^ c.clockW - t0.toNat)) % 2 ^ c.clockW ∧
    deadlinePassed c t0 t1 timeout
      = decide ((t1.toNat + (2 ^ c.clockW - t0.toNat)) % 2 ^ c.clockW > timeout.toNat)

/-! ### Units -/

/-- R148, R149 (R151: the bounds check cannot fail). BUF_CAP is at least 1 (R14). -/
def Obligations.StartUnitBecomesByteZero : Prop :=
  ∀ (b : Byte) (s : State), 1 ≤ s.cfg.bufCap →
    (s.cursor = 0 →
      exec (.start b) s = .next { s with buf := s.buf.write 0 b, cursor := 1, cp := .dEof }) ∧
    (s.cursor ≠ 0 →
      exec (.start b) s = .next { s with
        diagLog := s.diagLog ++ [.resync s.cursor], buf := s.buf.write 0 b, cursor := 1, cp := .dEof })

/-- R150, for an instance whose BUF_CAP fits in 8 bits (R13): the append, in both states of the machine, and the
overflow arm, its kind handed to the operation; what RECEIVE, RECV_REQ and a QUERY in its wait loop make of it. -/
def Obligations.DataUnitIsAppendedOrOverflows : Prop :=
  ∀ (b : Byte) (s : State), s.cfg.bufCap ≤ 255 →
    (s.cursor.toNat < s.cfg.bufCap →
      exec (.data b) s = .next { s with
        buf := s.buf.write s.cursor.toNat b, cursor := BitVec.ofNat 8 (s.cursor.toNat + 1), cp := .dEof }) ∧
    (s.cursor.toNat = s.cfg.bufCap →
      exec (.data b) s = .next (deliver .overflow { s with
        cursor := 0, diagLog := s.diagLog ++ [.fail .overflow 0], rxKind := .overflow, cp := .dOff })) ∧
    (s.cursor.toNat = s.cfg.bufCap → s.curOp = opReceive →
      exec (.data b) s = .next { s with
        cursor := 0, diagLog := s.diagLog ++ [.fail .overflow 0], rxKind := .overflow, cp := .dOff, busy := false }) ∧
    (s.cursor.toNat = s.cfg.bufCap → s.curOp = opRecvReq →
      exec (.data b) s = .next { s with
        cursor := 0, diagLog := s.diagLog ++ [.fail .overflow 0], rxKind := .overflow, cp := .dOff, busy := false
        reqOk := false }) ∧
    (s.cursor.toNat = s.cfg.bufCap → s.curOp = opQuery →
      exec (.data b) s = .next { s with
        cursor := 0, diagLog := s.diagLog ++ [.fail .overflow 0], rxKind := .overflow, cp := .dOff, busy := false
        ctl := .idle, qValue := 0xFFFF })

/-- R61, R148 to R150, byte by byte: a START stores at index 0, a DATA at index `cursor`, with room for it; every
other byte of BUF and every byte of RXP and TXP reads as before. -/
def Obligations.UnitsStoreOneByte : Prop :=
  ∀ (b : Byte) (s t : State),
    (exec (.start b) s = .next t →
      byteAt t .buf 0 = b ∧ (∀ i, i ≠ 0 → byteAt t .buf i = byteAt s .buf i) ∧
      (∀ i, byteAt t .rxp i = byteAt s .rxp i) ∧ (∀ i, byteAt t .txp i = byteAt s .txp i)) ∧
    (s.cursor.toNat < s.cfg.bufCap → exec (.data b) s = .next t →
      byteAt t .buf s.cursor.toNat = b ∧ (∀ i, i ≠ s.cursor.toNat → byteAt t .buf i = byteAt s .buf i) ∧
      (∀ i, byteAt t .rxp i = byteAt s .rxp i) ∧ (∀ i, byteAt t .txp i = byteAt s .txp i))

/-! ### Frames -/

/-- R156 to R159, R183: a frame that verifies, collected for RECEIVE, is latched: port, length and payload; RXP
beyond the payload, BUF and TXP keep their bytes, and nothing else changes. -/
def Obligations.FrameIsLatched : Prop :=
  ∀ (p : Byte) (d : List Byte) (s : State),
    s.cfg.Valid → d.length ≤ s.cfg.maxPayload → s.curOp = opReceive →
    ∃ t, exec (.frame p d (checksum p d)) s = .next t ∧
      t.rxKind = .ok ∧ t.rxPort = p ∧ t.rxLen.toNat = d.length ∧
      (∀ i, (h : i < d.length) → byteAt t .rxp i = d[i]) ∧
      (∀ i, d.length ≤ i → byteAt t .rxp i = byteAt s .rxp i) ∧
      t = { s with
        cursor := 0, cp := .dOff, busy := false, rxKind := .ok, rxPort := p, rxLen := t.rxLen, rxp := t.rxp
        diagLog := s.diagLog ++ [.frameRx (p :: (d ++ be16Pack (checksum p d))) (checksum p d) (checksum p d)] }

/-- R157, R158: a frame of any of the three rows whose checksum differs ends CHECKSUM_MISMATCH, and latches nothing. -/
def Obligations.CorruptFrameIsRejected : Prop :=
  ∀ (p : Byte) (d : List Byte) (ck : Half) (s : State), s.curOp = opReceive → ck ≠ checksum p d →
    let t := { s with
      cursor := 0, cp := .dOff, busy := false, rxKind := .checksumMismatch
      diagLog := s.diagLog ++
        [.frameRx (p :: (d ++ be16Pack ck)) ck (checksum p d), .fail .checksumMismatch (checksum p d)] }
    exec (.frame p d ck) s = .next t ∧
    (∀ r a, d = requestPayload r a → exec (.reqFrame p r a ck) s = .next t) ∧
    (∀ v, d = be16Pack v → exec (.rspFrame p v ck) s = .next t)

/-- R97, R157, R158, R221, R222: a request frame that verifies, collected for RECV_REQ, gives `REQ_OK = 1` and its
fields, whatever its port byte; its payload is latched high byte first and its bytes go to the FRAME_RX event. -/
def Obligations.RequestFrameIsTaken : Prop :=
  ∀ (p : Byte) (r a : Half) (s : State), s.cfg.Valid → s.curOp = opRecvReq →
    ∃ t, exec (.reqFrame p r a (checksum p (requestPayload r a))) s = .next t ∧
      t.reqOk = true ∧ t.reqPort = p ∧ t.reqRegister = r ∧ t.reqParameter = a ∧
      t.rxKind = .ok ∧ t.rxPort = p ∧ t.rxLen = 4 ∧ t.cursor = 0 ∧ t.cp = .dOff ∧ t.busy = false ∧
      byteAt t .rxp 0 = highByte r ∧ byteAt t .rxp 1 = lowByte r ∧
      byteAt t .rxp 2 = highByte a ∧ byteAt t .rxp 3 = lowByte a ∧
      t.diagLog = s.diagLog ++
        [.frameRx (p :: (requestPayload r a ++ be16Pack (checksum p (requestPayload r a))))
          (checksum p (requestPayload r a)) (checksum p (requestPayload r a))] ∧
      (∀ i, 4 ≤ i → byteAt t .rxp i = byteAt s .rxp i) ∧ (∀ i, byteAt t .buf i = byteAt s .buf i) ∧
      t.txq = s.txq ∧ t.rxq = s.rxq ∧ KeepsController s t ∧ KeepsChannel s t ∧ KeepsRequest s t

/-- R98, R157, R158, R196 to R201: a response frame that verifies resolves the request in its wait loop, whatever its
port byte: QUERY takes its value, CONTROL only its arrival; its payload is latched high byte first and its bytes go to
the FRAME_RX event. -/
def Obligations.ResponseFrameResolvesRequest : Prop :=
  ∀ (q : Byte) (v : Half) (s : State), s.cfg.Valid → s.ctl = .sent → s.curOp = opQuery ∨ s.curOp = opControl →
    ∃ t, exec (.rspFrame q v (checksum q (be16Pack v))) s = .next t ∧
      (s.curOp = opQuery → t.qValue = v ∧ t.cOk = s.cOk) ∧
      (s.curOp = opControl → t.cOk = true ∧ t.qValue = s.qValue) ∧
      t.sDevtype = s.sDevtype ∧ t.revA = s.revA ∧ t.revB = s.revB ∧ t.revC = s.revC ∧ t.revOk = s.revOk ∧
      t.ctl = .idle ∧ t.cp = .dOff ∧ t.cursor = 0 ∧ t.busy = false ∧
      t.rxKind = .ok ∧ t.rxPort = q ∧ t.rxLen = 2 ∧
      byteAt t .rxp 0 = highByte v ∧ byteAt t .rxp 1 = lowByte v ∧
      t.diagLog = s.diagLog ++
        [.frameRx (q :: (be16Pack v ++ be16Pack (checksum q (be16Pack v)))) (checksum q (be16Pack v))
          (checksum q (be16Pack v))] ∧
      (∀ i, 2 ≤ i → byteAt t .rxp i = byteAt s .rxp i) ∧ (∀ i, byteAt t .buf i = byteAt s .buf i) ∧
      t.txq = s.txq ∧ t.rxq = s.rxq ∧ t.tReq = s.tReq ∧ KeepsDevice s t ∧ KeepsChannel s t

/-- R197, R242: a frame that verifies and whose payload is not 2 bytes resolves a QUERY as a failure: BAD_LENGTH with
the length as data, the sentinel, while `RX_KIND` reads OK. -/
def Obligations.ReplyOfWrongLengthFails : Prop :=
  ∀ (p : Byte) (d : List Byte) (s : State), s.cfg.Valid → d.length ≤ s.cfg.maxPayload → d.length ≠ 2 →
    s.curOp = opQuery →
    ∃ t, exec (.frame p d (checksum p d)) s = .next t ∧
      t.qValue = 0xFFFF ∧ t.rxKind = .ok ∧ t.rxPort = p ∧ t.rxLen.toNat = d.length ∧ t.ctl = .idle ∧
      t.busy = false ∧
      t.diagLog = s.diagLog ++
        [.frameRx (p :: (d ++ be16Pack (checksum p d))) (checksum p d) (checksum p d),
          .fail .badLength (BitVec.ofNat 16 d.length)]

/-! ### The channel commands -/

/-- R190: `TIMEOUT <- {op_a, op_b}[CLOCK_W-1:0]`; the whole next state. -/
def Obligations.SetTimeoutCompletes : Prop :=
  ∀ (p : Byte) (a b : Half) (s : State), s.busy = false →
    exec (.setTimeout p a b) s = .next { s with
      timeout := BitVec.ofNat 32 ((a.toNat * 65536 + b.toNat) % 2 ^ s.cfg.clockW)
      curOp := 0x1, opPort := p, opA := a, opB := b }

/-- R185: LOADP writes `TXP[index]` only, or is refused; every other byte reads as before. -/
def Obligations.LoadpCompletes : Prop :=
  ∀ (p : Byte) (a b : Half) (s : State), s.busy = false →
    (a.toNat % 256 < s.cfg.maxPayload →
      exec (.loadp p a b) s = .next { s with
        txp := s.txp.write (a.toNat % 256) (BitVec.ofNat 8 b.toNat)
        curOp := 0xA, opPort := p, opA := a, opB := b }) ∧
    (∀ t, a.toNat % 256 < s.cfg.maxPayload → exec (.loadp p a b) s = .next t →
      byteAt t .txp (a.toNat % 256) = BitVec.ofNat 8 b.toNat ∧
      (∀ i, i ≠ a.toNat % 256 → byteAt t .txp i = byteAt s .txp i) ∧
      (∀ i, byteAt t .rxp i = byteAt s .rxp i) ∧ (∀ i, byteAt t .buf i = byteAt s .buf i)) ∧
    (s.cfg.maxPayload ≤ a.toNat % 256 →
      exec (.loadp p a b) s = .next (onlyRefused (0xA#4 ++ 0x0#4 ++ p) s))

/-- R181, R131, R132: whatever the environment does short of reset, SEND ends with exactly the units of the frame
`(op_port, TXP[0 .. L-1])` added to `txq`, consecutively, and its FRAME_TX event, and touches neither the receive state nor any result. -/
def Obligations.SendWritesItsFrame : Prop :=
  ∀ (p : Byte) (a b : Half) (s : State), Quiescent s → NoReset s → a.toNat % 256 ≤ s.cfg.maxPayload →
    ∃ t, exec (.send p a b) s = .next t ∧
      t.txq = s.txq ++ encodeFrame p ((List.range (a.toNat % 256)).map fun i => byteAt s .txp i) ∧
      t.diagLog.getLast? = some (.frameTx p ((List.range (a.toNat % 256)).map fun i => byteAt s .txp i)
        (checksum p ((List.range (a.toNat % 256)).map fun i => byteAt s .txp i))) ∧
      Quiescent t ∧ Latched 0x8 p a b t ∧
      KeepsReceive s t ∧ KeepsChannel s t ∧ KeepsController s t ∧ KeepsDevice s t ∧ KeepsRequest s t

/-- R182: SEND with `L > MAX_PAYLOAD` is refused. -/
def Obligations.SendBeyondBoundIsRefused : Prop :=
  ∀ (p : Byte) (a b : Half) (s : State), s.cfg.maxPayload < a.toNat % 256 →
    exec (.send p a b) s = .next (onlyRefused (0x8#4 ++ 0x0#4 ++ p) s)

/-- R224: SEND_RSP ends with the five units of the response frame added to `txq` and its FRAME_TX event, and writes no
result. -/
def Obligations.SendRspWritesItsFrame : Prop :=
  ∀ (p : Byte) (a b : Half) (s : State), Quiescent s → NoReset s →
    ∃ t, exec (.sendRsp p a b) s = .next t ∧
      t.txq = s.txq ++ encodeFrame p [highByte b, lowByte b] ∧
      t.diagLog.getLast? = some (.frameTx p [highByte b, lowByte b] (checksum p [highByte b, lowByte b])) ∧
      Quiescent t ∧ Latched 0x7 p a b t ∧
      KeepsReceive s t ∧ KeepsChannel s t ∧ KeepsController s t ∧ KeepsDevice s t ∧ KeepsRequest s t

/-- R161: with nothing appended during the attempt, RECEIVE ends as `decode_queue` says, unless the timeout test
fired: outcome, units left, events (R166), latched result (R158); everything the attempt does not own is unchanged. The
timeout does not fire when the clock advances by no more than `TIMEOUT` over the whole script (R145). -/
def Obligations.ReceiveIsDecodeQueue : Prop :=
  ∀ (p : Byte) (a b : Half) (s : State), s.cfg.Valid → Quiescent s → NoArrivals s →
    ∃ t, exec (.receive p a b) s = .next t ∧ Quiescent t ∧ t.cursor = 0 ∧ Latched 0x9 p a b t ∧
      t.txq = s.txq ∧ KeepsChannel s t ∧ KeepsController s t ∧ KeepsDevice s t ∧ KeepsRequest s t ∧
      (∀ i, s.rxq.length ≤ i → byteAt t .buf i = byteAt s .buf i) ∧
      (t.rxKind = .timeout ∨
        (t.rxKind = (decodeQueue s.cfg s.rxq).kind ∧
          t.rxq = (decodeQueue s.cfg s.rxq).rest ∧
          t.diagLog = s.diagLog ++ (decodeQueue s.cfg s.rxq).events ∧
          (t.rxKind = .ok →
            t.rxPort = (decodeQueue s.cfg s.rxq).port ∧
            t.rxLen.toNat = (decodeQueue s.cfg s.rxq).payload.length ∧
            (∀ i, (h : i < (decodeQueue s.cfg s.rxq).payload.length) →
              byteAt t .rxp i = (decodeQueue s.cfg s.rxq).payload[i]) ∧
            (∀ i, (decodeQueue s.cfg s.rxq).payload.length ≤ i → byteAt t .rxp i = byteAt s .rxp i)))) ∧
      (t.rxKind ≠ .ok →
        t.rxPort = s.rxPort ∧ t.rxLen = s.rxLen ∧ ∀ i, byteAt t .rxp i = byteAt s .rxp i) ∧
      (scriptTicks s ≤ s.timeout.toNat → t.rxKind ≠ .timeout)

/-- R136: the frame of any port byte and any payload that fits is received as it was sent, unless the timeout fired,
which it does not when the clock advances by no more than `TIMEOUT` over the whole script (R145). -/
def Obligations.SentFrameIsReceived : Prop :=
  ∀ (q : Byte) (d : List Byte) (p : Byte) (a b : Half) (s : State),
    s.cfg.Valid → s.cfg.maxLen ≤ s.cfg.bufCap → d.length ≤ s.cfg.maxPayload →
    Quiescent s → NoArrivals s → s.rxq = encodeFrame q d →
    ∃ t, exec (.receive p a b) s = .next t ∧
      (t.rxKind ≠ .timeout →
        t.rxKind = .ok ∧ t.rxPort = q ∧ t.rxLen.toNat = d.length ∧
        (∀ i, (h : i < d.length) → byteAt t .rxp i = d[i]) ∧ t.rxq = []) ∧
      (scriptTicks s ≤ s.timeout.toNat → t.rxKind ≠ .timeout)

/-- R167, resynchronization: a run of units that does not itself end the attempt, followed by a frame that fits, is
discarded, and the frame is decoded. -/
def Obligations.ResynchronizationFindsTheFrame : Prop :=
  ∀ (c : Params) (x : List LineUnit) (q : Byte) (d : List Byte),
    c.Valid → 1 ≤ x.length → x.length ≤ c.bufCap → x.length < c.maxLen →
    d.length ≤ c.maxPayload → d.length + 3 ≤ c.bufCap →
    (decodeQueue c (x ++ encodeFrame q d)).kind = .ok ∧
    (decodeQueue c (x ++ encodeFrame q d)).port = q ∧
    (decodeQueue c (x ++ encodeFrame q d)).payload = d ∧
    (decodeQueue c (x ++ encodeFrame q d)).rest = []

/-! ### The device commands -/

/-- R221: RECV_REQ runs one attempt; `REQ_*` is written from an OK payload of exactly 4 bytes, else only `REQ_OK`;
on a quiet line the attempt is `decode_queue`, and latches its result on OK only (R158). -/
def Obligations.RecvReqTakesOneRequest : Prop :=
  ∀ (p : Byte) (a b : Half) (s : State), s.cfg.Valid → Quiescent s → QuietScript s →
    ∃ t, exec (.recvReq p a b) s = .next t ∧ Quiescent t ∧ t.cursor = 0 ∧ Latched 0x6 p a b t ∧
      t.txq = s.txq ∧ KeepsChannel s t ∧ KeepsController s t ∧ KeepsRequest s t ∧
      (∀ i, s.rxq.length ≤ i → byteAt t .buf i = byteAt s .buf i) ∧
      t.rxKind = (decodeQueue s.cfg s.rxq).kind ∧ t.rxq = (decodeQueue s.cfg s.rxq).rest ∧
      ((decodeQueue s.cfg s.rxq).kind = .ok →
        t.rxPort = (decodeQueue s.cfg s.rxq).port ∧
        t.rxLen.toNat = (decodeQueue s.cfg s.rxq).payload.length ∧
        (∀ i, (h : i < (decodeQueue s.cfg s.rxq).payload.length) →
          byteAt t .rxp i = (decodeQueue s.cfg s.rxq).payload[i]) ∧
        (∀ i, (decodeQueue s.cfg s.rxq).payload.length ≤ i → byteAt t .rxp i = byteAt s .rxp i)) ∧
      ((decodeQueue s.cfg s.rxq).kind ≠ .ok →
        t.rxPort = s.rxPort ∧ t.rxLen = s.rxLen ∧ ∀ i, byteAt t .rxp i = byteAt s .rxp i) ∧
      (∀ r x q, (decodeQueue s.cfg s.rxq).kind = .ok → (decodeQueue s.cfg s.rxq).payload = requestPayload r x →
        (decodeQueue s.cfg s.rxq).port = q →
        t.reqOk = true ∧ t.reqPort = q ∧ t.reqRegister = r ∧ t.reqParameter = x ∧
        t.diagLog = s.diagLog ++ (decodeQueue s.cfg s.rxq).events) ∧
      ((decodeQueue s.cfg s.rxq).kind = .ok → (decodeQueue s.cfg s.rxq).payload.length ≠ 4 →
        t.reqOk = false ∧ t.reqPort = s.reqPort ∧ t.reqRegister = s.reqRegister ∧
        t.reqParameter = s.reqParameter ∧
        t.diagLog = s.diagLog ++ (decodeQueue s.cfg s.rxq).events ++
          [.fail .badLength (BitVec.ofNat 16 (decodeQueue s.cfg s.rxq).payload.length)]) ∧
      ((decodeQueue s.cfg s.rxq).kind ≠ .ok →
        t.reqOk = false ∧ t.reqPort = s.reqPort ∧ t.reqRegister = s.reqRegister ∧
        t.reqParameter = s.reqParameter ∧ t.diagLog = s.diagLog ++ (decodeQueue s.cfg s.rxq).events)

/-! ### The controller commands -/

/-- R193 to R198, R200: QUERY writes its request and, answered by a frame with a 2-byte payload from any port, whether
waiting already or arriving after S0, ends with the value in `Q_VALUE`. The script's places are the model's steps (log
entry 5). -/
def Obligations.QueryReturnsTheValue : Prop :=
  ∀ (p : Byte) (a b : Half) (q : Byte) (v : Half) (s : State),
    s.cfg.Valid → 5 ≤ s.cfg.bufCap → Quiescent s → Answered s (encodeFrame q (be16Pack v)) →
    ∃ t, exec (.query p a b) s = .next t ∧ Quiescent t ∧ t.cursor = 0 ∧ Latched 0x2 p a b t ∧
      t.qValue = v ∧
      t.txq = s.txq ++ encodeFrame p (requestPayload a b) ∧ t.rxq = [] ∧
      t.rxKind = .ok ∧ t.rxPort = q ∧ t.rxLen = 2 ∧
      byteAt t .rxp 0 = highByte v ∧ byteAt t .rxp 1 = lowByte v ∧
      (∀ i, 2 ≤ i → byteAt t .rxp i = byteAt s .rxp i) ∧ (∀ i, 5 ≤ i → byteAt t .buf i = byteAt s .buf i) ∧
      t.diagLog = s.diagLog ++
        [.frameTx p (requestPayload a b) (checksum p (requestPayload a b)),
          .frameRx (q :: (be16Pack v ++ be16Pack (checksum q (be16Pack v)))) (checksum q (be16Pack v))
            (checksum q (be16Pack v))] ∧
      t.cOk = s.cOk ∧ t.sDevtype = s.sDevtype ∧ t.revA = s.revA ∧ t.revB = s.revB ∧ t.revC = s.revC ∧
      t.revOk = s.revOk ∧ KeepsDevice s t ∧ KeepsChannel s t

/-- R201: CONTROL, answered by any valid 2-byte response, ends with `C_OK = 1` and leaves `Q_VALUE` alone. The script's
places are the model's steps (log entry 5). -/
def Obligations.ControlReportsTheResponse : Prop :=
  ∀ (p : Byte) (a b : Half) (q : Byte) (v : Half) (s : State),
    s.cfg.Valid → 5 ≤ s.cfg.bufCap → Quiescent s → Answered s (encodeFrame q (be16Pack v)) →
    ∃ t, exec (.control p a b) s = .next t ∧ Quiescent t ∧ Latched 0x3 p a b t ∧
      t.cOk = true ∧
      t.txq = s.txq ++ encodeFrame p (requestPayload a b) ∧ t.rxq = [] ∧ t.rxKind = .ok ∧ t.rxPort = q ∧
      t.rxLen = 2 ∧ (∀ i, 2 ≤ i → byteAt t .rxp i = byteAt s .rxp i) ∧
      (∀ i, 5 ≤ i → byteAt t .buf i = byteAt s .buf i) ∧
      t.qValue = s.qValue ∧ t.sDevtype = s.sDevtype ∧ t.revA = s.revA ∧ t.revB = s.revB ∧ t.revC = s.revC ∧
      t.revOk = s.revOk ∧ KeepsDevice s t ∧ KeepsChannel s t

/-- R202: SCAN asks for DEVTYPE_REG and maps the raw value through DEVTYPE_TABLE; a value outside the table gives
NONE and the UNRESOLVED_DEVICE_TYPE event. The script's places are the model's steps (log entry 5). -/
def Obligations.ScanMapsTheRawValue : Prop :=
  ∀ (p : Byte) (a b : Half) (q : Byte) (v : Half) (s : State),
    s.cfg.Valid → 5 ≤ s.cfg.bufCap → Quiescent s → Answered s (encodeFrame q (be16Pack v)) →
    ∃ t, exec (.scan p a b) s = .next t ∧ Quiescent t ∧ Latched 0x4 p a b t ∧
      t.txq = s.txq ++ encodeFrame p (requestPayload s.cfg.devtypeReg 0) ∧
      (∀ d, s.cfg.devtypeTable.lookup v = some d → t.sDevtype = d ∧
        DiagEvent.fail .unresolvedDeviceType v ∉ t.diagLog.drop s.diagLog.length) ∧
      (s.cfg.devtypeTable.lookup v = none → t.sDevtype = 0 ∧
        t.diagLog.getLast? = some (.fail .unresolvedDeviceType v)) ∧
      t.rxKind = .ok ∧ t.rxPort = q ∧ t.rxLen = 2 ∧ (∀ i, 2 ≤ i → byteAt t .rxp i = byteAt s .rxp i) ∧
      (∀ i, 5 ≤ i → byteAt t .buf i = byteAt s .buf i) ∧
      t.qValue = s.qValue ∧ t.cOk = s.cOk ∧ t.revA = s.revA ∧ t.revB = s.revB ∧ t.revC = s.revC ∧
      t.revOk = s.revOk ∧ KeepsDevice s t ∧ KeepsChannel s t

/-- R203: GET_REVISION, each of its three requests answered in turn, ends with the three values and `REV_OK = 1`. The
script's places are the model's steps (log entry 5). -/
def Obligations.GetRevisionReadsThree : Prop :=
  ∀ (p : Byte) (a b : Half) (q0 q1 q2 : Byte) (v0 v1 v2 : Half) (n : Nat) (s : State),
    s.cfg.Valid → 5 ≤ s.cfg.bufCap → Quiescent s → s.rxq = [] →
    s.script = answerScript (encodeFrame q0 (be16Pack v0)) 17 ++ answerScript (encodeFrame q1 (be16Pack v1)) 17 ++
      answerScript (encodeFrame q2 (be16Pack v2)) n →
    ∃ t, exec (.getRevision p a b) s = .next t ∧ Quiescent t ∧ Latched 0x5 p a b t ∧
      t.revA = v0 ∧ t.revB = v1 ∧ t.revC = v2 ∧ t.revOk = true ∧
      t.txq = s.txq ++ encodeFrame p (requestPayload s.cfg.revRegA 0) ++
        encodeFrame p (requestPayload s.cfg.revRegB 0) ++ encodeFrame p (requestPayload s.cfg.revRegC 0) ∧
      t.rxq = [] ∧ t.rxKind = .ok ∧ t.rxPort = q2 ∧ t.rxLen = 2 ∧
      (∀ i, 2 ≤ i → byteAt t .rxp i = byteAt s .rxp i) ∧ (∀ i, 5 ≤ i → byteAt t .buf i = byteAt s .buf i) ∧
      t.qValue = s.qValue ∧ t.cOk = s.cOk ∧ t.sDevtype = s.sDevtype ∧ KeepsDevice s t ∧ KeepsChannel s t

/-- R197, R199 to R203, R246: on a quiet line whose waiting units decode to anything but an OK payload of 2 bytes, each
request command ends at once with its sentinel, having sent one request. -/
def Obligations.FailureGivesTheSentinel : Prop :=
  ∀ (p : Byte) (a b : Half) (s : State),
    s.cfg.Valid → Quiescent s → QuietScript s → s.rxq ≠ [] →
    ¬ ((decodeQueue s.cfg s.rxq).kind = .ok ∧ (decodeQueue s.cfg s.rxq).payload.length = 2) →
    (∃ t, exec (.query p a b) s = .next t ∧ Quiescent t ∧ t.qValue = 0xFFFF ∧
      t.txq = s.txq ++ encodeFrame p (requestPayload a b) ∧ t.rxKind = (decodeQueue s.cfg s.rxq).kind) ∧
    (∃ t, exec (.control p a b) s = .next t ∧ Quiescent t ∧ t.cOk = false ∧
      t.txq = s.txq ++ encodeFrame p (requestPayload a b) ∧ t.rxKind = (decodeQueue s.cfg s.rxq).kind) ∧
    (∃ t, exec (.scan p a b) s = .next t ∧ Quiescent t ∧ t.sDevtype = 0 ∧
      t.txq = s.txq ++ encodeFrame p (requestPayload s.cfg.devtypeReg 0) ∧
      t.rxKind = (decodeQueue s.cfg s.rxq).kind) ∧
    (∃ t, exec (.getRevision p a b) s = .next t ∧ Quiescent t ∧
      t.revA = 0xFFFF ∧ t.revB = 0xFFFF ∧ t.revC = 0xFFFF ∧ t.revOk = false ∧
      t.txq = s.txq ++ encodeFrame p (requestPayload s.cfg.revRegA 0) ∧
      t.rxKind = (decodeQueue s.cfg s.rxq).kind)

/-- R196, R237, R297: with nothing on the line, the first S6 sample more than `TIMEOUT` milliseconds after S0 ends
each request command with its sentinel and a TIMEOUT_EVT, while `RX_KIND` reads NO_DATA. The script's places are the
model's steps (log entry 5). -/
def Obligations.UnansweredRequestTimesOut : Prop :=
  ∀ (p : Byte) (a b : Half) (n : Nat) (s : State),
    s.cfg.Valid → Quiescent s → s.rxq = [] → s.script = silenceScript n →
    s.timeout.toNat < n → n < 2 ^ s.cfg.clockW →
    (∃ t, exec (.query p a b) s = .next t ∧ Quiescent t ∧ t.qValue = 0xFFFF ∧ t.rxKind = .noData ∧
      t.diagLog = s.diagLog ++
        [.frameTx p (requestPayload a b) (checksum p (requestPayload a b)), .timeoutEvt]) ∧
    (∃ t, exec (.control p a b) s = .next t ∧ Quiescent t ∧ t.cOk = false ∧ t.rxKind = .noData ∧
      t.diagLog.getLast? = some .timeoutEvt) ∧
    (∃ t, exec (.scan p a b) s = .next t ∧ Quiescent t ∧ t.sDevtype = 0 ∧ t.rxKind = .noData ∧
      t.diagLog.getLast? = some .timeoutEvt) ∧
    (∃ t, exec (.getRevision p a b) s = .next t ∧ Quiescent t ∧ t.revOk = false ∧ t.revA = 0xFFFF ∧
      t.revB = 0xFFFF ∧ t.revC = 0xFFFF ∧ t.rxKind = .noData ∧ t.diagLog.getLast? = some .timeoutEvt)

/-- R196, "The comparison at S6 is strict": at no more than `TIMEOUT` milliseconds after S0 the request still waits. The
script's places, and that the run of a command then comes to rest, are the model's (log entries 4, 5). -/
def Obligations.RequestWaitsUntilTheDeadline : Prop :=
  ∀ (p : Byte) (a b : Half) (n : Nat) (s : State),
    s.cfg.Valid → Quiescent s → s.rxq = [] → s.script = silenceScript n →
    n ≤ s.timeout.toNat → n < 2 ^ s.cfg.clockW →
    ∃ t, exec (.query p a b) s = .next t ∧ t.busy = true ∧ t.ctl = .sent ∧ t.qValue = s.qValue ∧
      waitsOnSilence t = true

/-- R294: a request that waits while the clock stands still and nothing arrives never ends. A script that is used up is
such an environment (log entry 4). -/
def Obligations.SilentWaitNeverEnds : Prop :=
  ∀ (s : State) (k : Nat), s.busy = true → isRequestOp s.curOp = true →
    waitsOnSilence s = true → s.now.toNat < 2 ^ s.cfg.clockW → s.cfg.clockW ≤ 32 →
    ∃ t, Sys2Proof.core.run k s = .next t ∧ t.busy = true ∧ t.ctl = .sent ∧ t.txq = s.txq ∧ t.diagLog = s.diagLog

/-! ### Commands in general -/

/-- R243 (1), R40: while `busy = 1` every command word, of whatever row, is refused and the operation in progress is
not disturbed. A word that the environment presents to a busy block is met before the block's action, in a step and in
the run of a command alike (`tick`): the step is the step without the word, from the state in which it has been refused.
That last clause rests on the environment script (log entry 4). -/
def Obligations.BusyBlockRefusesEveryWord : Prop :=
  ∀ (w : CmdWord) (s : State), s.busy = true →
    exec (decodeCommand w) s = .next (onlyRefused (cmdOp w ++ cmdRsvd w ++ cmdPort w) s) ∧
    ((nextMove s).rst = false → (nextMove s).present = some w →
      step s = step (onlyRefused (cmdOp w ++ cmdRsvd w ++ cmdPort w) (withoutPresented s)) ∧
      tick s = tick (onlyRefused (cmdOp w ++ cmdRsvd w ++ cmdPort w) (withoutPresented s)))

/-- R38, R243: a word that none of the five tests refuses is accepted, and its fields stay latched. -/
def Obligations.AcceptedCommandIsLatched : Prop :=
  ∀ (w : CmdWord) (s t : State), s.busy = false → NoReset s → cmdRsvd w = 0 →
    0x1 ≤ (cmdOp w).toNat → (cmdOp w).toNat ≤ 0xA →
    ¬ (cmdOp w = 0x8 ∧ s.cfg.maxPayload < (cmdA w).toNat % 256) →
    ¬ (cmdOp w = 0xA ∧ s.cfg.maxPayload ≤ (cmdA w).toNat % 256) →
    exec (decodeCommand w) s = .next t →
    Latched (cmdOp w) (cmdPort w) (cmdA w) (cmdB w) t

/-- R43, R206, R181, R190, R221: short of reset, whatever else the environment does, a command writes no result
register but its own, none but LOADP writes TXP, none but SET_TIMEOUT writes `TIMEOUT`. -/
def Obligations.CommandsKeepOtherRegisters : Prop :=
  ∀ (p : Byte) (a b : Half) (s t : State), NoReset s → s.enc = none →
    (exec (.query p a b) s = .next t → KeepsDevice s t ∧ KeepsChannel s t ∧
      t.cOk = s.cOk ∧ t.sDevtype = s.sDevtype ∧ t.revA = s.revA ∧ t.revB = s.revB ∧ t.revC = s.revC ∧
      t.revOk = s.revOk) ∧
    (exec (.control p a b) s = .next t → KeepsDevice s t ∧ KeepsChannel s t ∧
      t.qValue = s.qValue ∧ t.sDevtype = s.sDevtype ∧ t.revA = s.revA ∧ t.revB = s.revB ∧ t.revC = s.revC ∧
      t.revOk = s.revOk) ∧
    (exec (.scan p a b) s = .next t → KeepsDevice s t ∧ KeepsChannel s t ∧
      t.qValue = s.qValue ∧ t.cOk = s.cOk ∧ t.revA = s.revA ∧ t.revB = s.revB ∧ t.revC = s.revC ∧
      t.revOk = s.revOk) ∧
    (exec (.getRevision p a b) s = .next t → KeepsDevice s t ∧ KeepsChannel s t ∧
      t.qValue = s.qValue ∧ t.cOk = s.cOk ∧ t.sDevtype = s.sDevtype) ∧
    (exec (.recvReq p a b) s = .next t → KeepsController s t ∧ KeepsChannel s t ∧ t.txq = s.txq) ∧
    (exec (.receive p a b) s = .next t →
      KeepsController s t ∧ KeepsDevice s t ∧ KeepsChannel s t ∧ t.txq = s.txq)

/-- R100, R102, V9: the fields a command does not use change nothing but the latch. -/
def Obligations.UnusedFieldsAreIgnored : Prop :=
  ∀ (p p' : Byte) (a a' b b' : Half) (s : State), s.busy = false →
    forgetOperands (exec (.scan p a b) s) = forgetOperands (exec (.scan p a' b') s) ∧
    forgetOperands (exec (.getRevision p a b) s) = forgetOperands (exec (.getRevision p a' b') s) ∧
    forgetOperands (exec (.recvReq p a b) s) = forgetOperands (exec (.recvReq p' a' b') s) ∧
    forgetOperands (exec (.receive p a b) s) = forgetOperands (exec (.receive p' a' b') s) ∧
    forgetOperands (exec (.sendRsp p a b) s) = forgetOperands (exec (.sendRsp p a' b) s) ∧
    (lowByte a = lowByte a' →
      forgetOperands (exec (.send p a b) s) = forgetOperands (exec (.send p a' b') s))

/-- R294, R205: from a state of the invariant, every command that is accepted comes to rest: its operation has ended,
or it is a request that can only wait. What rest is, is the model's choice (log entry 5), and so is that the environment
is a finite script, after which it does nothing (log entry 4). -/
def Obligations.CommandsComeToRest : Prop :=
  ∀ (w : CmdWord) (s : State), BlockInv s → s.busy = false →
    ∃ t, exec (decodeCommand w) s = .next t ∧ atRest t = true

/-- R294: SET_TIMEOUT, LOADP, SEND, SEND_RSP, RECEIVE and RECV_REQ end under every script of the environment: a script
is finite (log entry 4), so `rxq` stops growing. -/
def Obligations.CommandsWithoutRequestEnd : Prop :=
  ∀ (p : Byte) (a b : Half) (i : Instr) (s : State), BlockInv s → s.busy = false →
    i ∈ [Instr.setTimeout p a b, .loadp p a b, .send p a b, .sendRsp p a b, .receive p a b, .recvReq p a b] →
    ∃ t, exec i s = .next t ∧ t.busy = false

/-! ### The machine -/

/-- R66, R243, R284: an idle block runs the command word presented to it, else the next word of the waiting host. The two
places where the host's words stand are the model's choice (log entry 4). -/
def Obligations.StepRunsThePresentedCommand : Prop :=
  ∀ (s : State) (w : CmdWord), s.busy = false → (nextMove s).rst = false →
    ((nextMove s).present = some w → step s = exec (decodeCommand w) (environmentActs s)) ∧
    ((nextMove s).present = none → ∀ rest, s.hostq = w :: rest →
      step s = exec (decodeCommand w) { environmentActs s with hostq := rest })

/-- R66, R146, R147: at `D_READ` a step takes the unit at the head of `rxq` and runs the START or DATA it is. -/
def Obligations.StepRunsTheWaitingUnit : Prop :=
  ∀ (s : State) (u : LineUnit) (rest : List LineUnit), s.busy = true → s.enc = none → s.cp = .dRead →
    (nextMove s).rst = false → (nextMove s).present = none → (environmentActs s).rxq = u :: rest →
    step s = exec (decodeUnit u) { environmentActs s with rxq := rest }

/-- R153, R155: at `D_FINISH` a step runs the frame that the collected bytes are. -/
def Obligations.StepRunsTheCollectedFrame : Prop :=
  ∀ (s : State) (i : Instr), s.busy = true → s.enc = none → s.cp = .dFinish → s.cursor.toNat ≤ s.cfg.bufCap →
    (nextMove s).rst = false → (nextMove s).present = none →
    decodeBytes (bytesAt s .buf 0 s.cursor.toNat) = .ok i →
    step s = exec i (environmentActs s)

/-- A step of a busy block, with its fetch of units and frames, is the step of the block that the operations are run
by (R27, R141, R160; log entries 5, 9). -/
def Obligations.StepOfBusyBlockIsTick : Prop :=
  ∀ s : State, s.busy = true → step s = tick s

/-- R160: the transition table of the decode machine, row by row, for the block's action at each control point. The one
row of R160 for `D_BEGIN` with a unit waiting is two clauses here, S1 and then S2, told apart by `s1Seen`, the model's
own field (log entry 5). -/
def Obligations.DecodeTransitions : Prop :=
  ∀ s : State, s.enc = none →
    (s.cp = .dBegin → s.s1Seen = false → s.cursor = 0 → s.rxq = [] →
      act s = .next (deliver .noData { s with rxKind := .noData, cp := .dOff })) ∧
    (s.cp = .dBegin → s.s1Seen = false → s.rxq ≠ [] → act s = .next { s with s1Seen := true }) ∧
    (s.cp = .dBegin → s.s1Seen = true → act s = .next { s with tStart := s.now, cp := .dLoop, s1Seen := false }) ∧
    (s.cp = .dLoop → s.timeout.toNat < (elapsed s.cfg.clockW s.tStart s.now).toNat →
      act s = .next (deliver .timeout
        { s with cursor := 0, diagLog := s.diagLog ++ [.timeoutEvt], rxKind := .timeout, cp := .dOff })) ∧
    (s.cp = .dLoop → (elapsed s.cfg.clockW s.tStart s.now).toNat ≤ s.timeout.toNat →
      act s = .next { s with cp := .dRead }) ∧
    (s.cp = .dRead → s.rxq = [] → act s = .next { s with cp := .dLoop }) ∧
    (∀ u rest, s.cp = .dRead → s.rxq = u :: rest → act s = exec (decodeUnit u) { s with rxq := rest }) ∧
    (s.cp = .dEof → s.rxq = [] ∨ s.cfg.maxLen ≤ s.cursor.toNat → act s = .next { s with cp := .dFinish }) ∧
    (s.cp = .dEof → s.rxq ≠ [] → s.cursor.toNat < s.cfg.maxLen → act s = .next { s with cp := .dLoop }) ∧
    (s.cp = .dFinish → s.cursor.toNat < 3 → s.cursor.toNat ≤ s.cfg.bufCap →
      act s = .next (deliver .truncated { s with
        cursor := 0, diagLog := s.diagLog ++ [.fail .truncated (BitVec.ofNat 16 s.cursor.toNat)]
        rxKind := .truncated, cp := .dOff })) ∧
    (∀ i, s.cp = .dFinish → s.cursor.toNat ≤ s.cfg.bufCap → decodeBytes (collectedBytes s) = .ok i →
      act s = exec i s)

/-- The invariant of the block (R22, R23, R25, R31, R48, R60, R134, R154, R164, R191, R245) is kept by every step,
from every state that has it. A step that samples `rst` keeps it by R271 but for `RX_KIND`, `RX_LEN`, `t_start` and
`t_req`, to which R271 gives no value: there it holds by the model's choice of their values (log entry 6). -/
def Obligations.EveryStepKeepsTheInvariant : Prop :=
  ∀ s t : State, BlockInv s → step s = .next t → BlockInv t

/-- The reset state of every instance has the invariant. `RX_KIND`, `RX_LEN` and the clock registers satisfy it by the
model's choice of their values (log entry 6). -/
def Obligations.ResetHasTheInvariant : Prop :=
  ∀ c : Params, c.Valid → BlockInv (State.resetOf c)

/-- U1, R150, R154: no step of a block that has the invariant stops; in particular no byte outside an array is ever
written. -/
def Obligations.BlockNeverStops : Prop :=
  ∀ s : State, BlockInv s → ∃ t, step s = .next t

/-- R277: no step, reset included, changes a parameter of the instance. -/
def Obligations.ParametersAreFixed : Prop :=
  ∀ s t : State, step s = .next t → t.cfg = s.cfg

/-- R271, the values the spec gives, for every instance. -/
def Obligations.ResetState : Prop :=
  ∀ c : Params, (State.resetOf c).cursor = 0 ∧ (State.resetOf c).cp = .dOff ∧ (State.resetOf c).ctl = .idle ∧
    (State.resetOf c).busy = false ∧ (State.resetOf c).timeout = c.timeoutReset

/-- R270 to R273: a step that samples `rst = 1` abandons whatever the block was doing, records nothing, ignores a
command presented with it, and leaves the environment's state alone. -/
def Obligations.ResetAbandonsTheOperation : Prop :=
  ∀ s : State, (nextMove s).rst = true →
    ∃ t, step s = .next t ∧ t.cfg = s.cfg ∧ t.cursor = 0 ∧ t.cp = .dOff ∧ t.ctl = .idle ∧ t.enc = none ∧
      t.busy = false ∧ t.timeout = s.cfg.timeoutReset ∧
      t.rxq = s.rxq ++ (nextMove s).arrivals ∧ t.txq = s.txq ∧ t.diagLog = s.diagLog ∧
      t.refusedPulses = s.refusedPulses ∧ t.hostq = s.hostq ∧
      t.now.toNat = (s.now.toNat + (nextMove s).ticks) % 2 ^ s.cfg.clockW % 2 ^ 32

/-- R78, R273: reset in the middle of a SEND leaves in `txq` the units already handed over, a part of the frame. One unit
a step is the model's (log entry 5). -/
def Obligations.ResetCutsTheFrame : Prop :=
  ∀ (p : Byte) (a b : Half) (k : Nat) (m : EnvMove) (s : State), Quiescent s →
    a.toNat % 256 ≤ s.cfg.maxPayload → k < a.toNat % 256 + 3 → m.rst = true →
    s.script = List.replicate k EnvMove.quiet ++ [m] →
    ∃ t, exec (.send p a b) s = .next t ∧ t.busy = false ∧ t.enc = none ∧
      t.txq = s.txq ++
        (encodeFrame p ((List.range (a.toNat % 256)).map fun i => byteAt s .txp i)).take k ∧
      t.diagLog = s.diagLog

/-- R263, R283: between operations, with no command, only the environment changes. -/
def Obligations.IdleBlockDoesNothing : Prop :=
  ∀ s : State, s.busy = false → s.hostq = [] → (nextMove s).rst = false → (nextMove s).present = none →
    step s = .next { s with
      script := s.script.tail
      rxq := s.rxq ++ (nextMove s).arrivals
      now := BitVec.ofNat 32 ((s.now.toNat + (nextMove s).ticks) % 2 ^ s.cfg.clockW) }

/-- R51, R53, R135, R262: what `txq` and `diag_log` hold, and how often `cmd_refused` has pulsed, never influences a
step, which only adds to them. That the pulses are counted is the model's choice (log entry 7). -/
def Obligations.OutputIsNeverReadBack : Prop :=
  ∀ (s : State) (l : List DiagEvent) (u : List LineUnit) (n : Nat),
    step (withEarlierOutput l u n s) = mapNext (withEarlierOutput l u n) (step s)

/-- R30, R39, R43: short of reset, `TIMEOUT` changes only in a step that runs SET_TIMEOUT, and a byte of TXP only in
a step that runs LOADP. -/
def Obligations.TimeoutAndTxpHaveOneWriter : Prop :=
  ∀ s t : State, NoReset s → step s = .next t →
    (t.timeout ≠ s.timeout → ∃ p a b s', fetch (nextMove s) (environmentActs s) = .instruction (.setTimeout p a b) s') ∧
    (t.txp ≠ s.txp → ∃ p a b s', fetch (nextMove s) (environmentActs s) = .instruction (.loadp p a b) s')

/-- R154: with BUF_CAP at least MAX_LEN no step ends in OVERFLOW. Of a step that samples `rst` this holds by the model's
choice of the value that `RX_KIND` has after reset (log entry 6). -/
def Obligations.OverflowNeedsASmallBuffer : Prop :=
  ∀ s t : State, BlockInv s → s.cfg.maxLen ≤ s.cfg.bufCap → s.rxKind ≠ .overflow → step s = .next t → t.rxKind ≠ .overflow

/-! ### What the host reads -/

/-- R235, R25, R33, R200: the code of each outcome kind; `RX_KIND` shows the code of the kind it holds, in a state of
the invariant one of the six of an attempt; `Q_VALUE` is read in two's complement, the sentinel as -1. That `RX_KIND` is
held as a kind is the model's choice (log entry 15). -/
def Obligations.HostReadsTheCodes : Prop :=
  (∀ s : State,
    (s.rxKind = .ok ↔ portRxKind s = 0x0) ∧ (s.rxKind = .noData ↔ portRxKind s = 0x1) ∧
    (s.rxKind = .timeout ↔ portRxKind s = 0x2) ∧ (s.rxKind = .truncated ↔ portRxKind s = 0x3) ∧
    (s.rxKind = .overflow ↔ portRxKind s = 0x4) ∧ (s.rxKind = .checksumMismatch ↔ portRxKind s = 0x5) ∧
    (s.rxKind = .unresolvedDeviceType ↔ portRxKind s = 0x6) ∧ (s.rxKind = .badLength ↔ portRxKind s = 0x7) ∧
    (s.rxKind = .refused ↔ portRxKind s = 0x8)) ∧
  (∀ s : State, BlockInv s → (portRxKind s).toNat ≤ 5) ∧
  (∀ s : State,
    portQValue s = (if s.qValue.toNat < 32768 then (s.qValue.toNat : Int) else (s.qValue.toNat : Int) - 65536)) ∧
  (∀ s : State, s.qValue = 0xFFFF ↔ portQValue s = -1)

/-- R262: the code and the data of each event as the `diag_*` ports show them, the RESYNC count zero-extended. A step
only adds to `diag_log`; no event it adds has one of the six codes that are never emitted, and a FAIL among them is one
of the five that R262 lists. That `diag_log` holds events from which the ports are computed is the model's choice (log
entry 15). -/
def Obligations.StepEmitsTheListedEvents : Prop :=
  (diagCode .timeoutEvt = 0x2 ∧ diagData .timeoutEvt = 0 ∧
    (∀ d, diagCode (.fail .truncated d) = 0x3 ∧ diagData (.fail .truncated d) = d) ∧
    (∀ d, diagCode (.fail .overflow d) = 0x4 ∧ diagData (.fail .overflow d) = d) ∧
    (∀ d, diagCode (.fail .checksumMismatch d) = 0x5 ∧ diagData (.fail .checksumMismatch d) = d) ∧
    (∀ d, diagCode (.fail .unresolvedDeviceType d) = 0x6 ∧ diagData (.fail .unresolvedDeviceType d) = d) ∧
    (∀ d, diagCode (.fail .badLength d) = 0x7 ∧ diagData (.fail .badLength d) = d) ∧
    (∀ d, diagCode (.refused d) = 0x8 ∧ diagData (.refused d) = d) ∧
    (∀ k, diagCode (.resync k) = 0x9 ∧ (diagData (.resync k)).toNat = k.toNat) ∧
    (∀ p d ck, diagCode (.frameTx p d ck) = 0xA ∧ diagData (.frameTx p d ck) = ck) ∧
    (∀ bs w a, diagCode (.frameRx bs w a) = 0xB ∧ diagData (.frameRx bs w a) = w)) ∧
  (∀ s t : State, step s = .next t →
    ∃ new, t.diagLog = s.diagLog ++ new ∧
      (∀ e ∈ new, 2 ≤ (diagCode e).toNat ∧ (diagCode e).toNat ≤ 11) ∧
      (∀ k d, DiagEvent.fail k d ∈ new →
        k ∈ [Kind.truncated, .overflow, .checksumMismatch, .unresolvedDeviceType, .badLength]))
end

