-- ==== Sys2Proof/Laws/Memory.lean ====
section
/-! SUPPORT. The byte arrays: a read after a write, the canonical form, the index range. -/

namespace Sys2Proof.Machine

@[simp] theorem Memory.read_write_same (m : Memory) (i : Nat) (b : Byte) : (Memory.write m i b).read i = some b := by
  induction m with
  | nil => simp [Memory.write, Memory.read]
  | cons e rest ih =>
    obtain ⟨j, c⟩ := e
    rcases Nat.lt_trichotomy i j with h | h | h
    · simp [Memory.write, Memory.read, h]
    · subst h; simp [Memory.write, Memory.read]
    · have h1 : ¬ i < j := by omega
      have h2 : i ≠ j := by omega
      simp [Memory.write, Memory.read, h1, h2, ih]

theorem Memory.read_write_other (m : Memory) {i j : Nat} (b : Byte) (h : j ≠ i) :
    (Memory.write m i b).read j = m.read j := by
  induction m with
  | nil => simp [Memory.write, Memory.read, h]
  | cons e rest ih =>
    obtain ⟨k, c⟩ := e
    rcases Nat.lt_trichotomy i k with h1 | h1 | h1
    · simp [Memory.write, Memory.read, h1, h]
    · subst h1; simp [Memory.write, Memory.read, h]
    · have h2 : ¬ i < k := by omega
      have h3 : i ≠ k := by omega
      simp [Memory.write, Memory.read, h2, h3, ih]

/-- A write lists no index but those listed before and its own. -/
theorem Memory.mem_write (m : Memory) (i : Nat) (b : Byte) (e : Host.Cell) (h : e ∈ Memory.write m i b) :
    e = (i, b) ∨ e ∈ m := by
  induction m with
  | nil => simpa [Memory.write] using h
  | cons x rest ih =>
    obtain ⟨j, c⟩ := x
    simp only [Memory.write] at h
    split at h
    · simpa using h
    · split at h
      · rcases List.mem_cons.mp h with h | h
        · exact .inl h
        · exact .inr (List.mem_cons_of_mem _ h)
      · rcases List.mem_cons.mp h with h | h
        · exact .inr (h ▸ List.mem_cons_self)
        · exact (ih h).imp_right (List.mem_cons_of_mem _)

/-- A write keeps the canonical form. -/
theorem Memory.write_wf (m : Memory) (i : Nat) (b : Byte) (h : m.wf) : (Memory.write m i b).wf := by
  induction m with
  | nil => simp [Memory.write, Memory.wf]
  | cons x rest ih =>
    obtain ⟨j, c⟩ := x
    have hx := List.pairwise_cons.mp h
    simp only [Memory.write]
    split
    · rename_i hij
      exact List.pairwise_cons.mpr ⟨fun y hy => by
        rcases List.mem_cons.mp hy with rfl | hy
        · exact hij
        · exact Nat.lt_trans hij (hx.1 y hy), h⟩
    · split
      · rename_i hij
        subst hij
        exact List.pairwise_cons.mpr ⟨hx.1, hx.2⟩
      · rename_i h1 h2
        refine List.pairwise_cons.mpr ⟨fun y hy => ?_, ih hx.2⟩
        rcases Memory.mem_write rest i b y hy with rfl | hy
        · exact Nat.lt_of_le_of_ne (Nat.le_of_not_lt h1) (Ne.symm h2)
        · exact hx.1 y hy

/-- A list of writes keeps the canonical form. -/
theorem Memory.writeList_wf (m : Memory) (i : Nat) (bs : List Byte) (h : m.wf) : (Memory.writeList m i bs).wf := by
  induction bs generalizing m i with
  | nil => exact h
  | cons b rest ih => exact ih _ _ (Memory.write_wf m i b h)

/-- The indices a list of writes lists. -/
theorem Memory.mem_writeList (m : Memory) (i : Nat) (bs : List Byte) (e : Host.Cell)
    (h : e ∈ Memory.writeList m i bs) : (i ≤ e.1 ∧ e.1 < i + bs.length) ∨ e ∈ m := by
  induction bs generalizing m i with
  | nil => exact .inr h
  | cons b rest ih =>
    rcases ih _ _ h with ⟨h1, h2⟩ | h1
    · exact .inl ⟨by omega, by simp only [List.length_cons]; omega⟩
    · rcases Memory.mem_write m i b e h1 with rfl | h1
      · exact .inl ⟨by simp, by simp only [List.length_cons]; omega⟩
      · exact .inr h1

theorem Memory.read_writeList_other (m : Memory) (i : Nat) (bs : List Byte) (j : Nat)
    (h : j < i ∨ i + bs.length ≤ j) : (Memory.writeList m i bs).read j = m.read j := by
  induction bs generalizing m i with
  | nil => rfl
  | cons b rest ih =>
    simp only [List.length_cons] at h
    rw [Memory.writeList, ih _ _ (by omega), Memory.read_write_other _ _ (by omega)]

theorem Memory.read_writeList_same (m : Memory) (i : Nat) (bs : List Byte) (k : Nat) (h : k < bs.length) :
    (Memory.writeList m i bs).read (i + k) = some bs[k] := by
  induction bs generalizing m i k with
  | nil => simp at h
  | cons b rest ih =>
    cases k with
    | zero =>
      rw [Memory.writeList, Memory.read_writeList_other _ _ _ _ (by omega)]
      simp
    | succ k =>
      have h' : k < rest.length := by simpa using h
      have := ih (Memory.write m i b) (i + 1) k h'
      rw [Memory.writeList, show i + (k + 1) = i + 1 + k by omega, this]
      simp

@[simp] theorem bytesAt_length (s : State) (sp : Space) (i n : Nat) : (bytesAt s sp i n).length = n := by
  simp [bytesAt]

/-- Two states whose array and epoch agree at an index read the same byte there. -/
theorem byteAt_congr {s t : State} {sp : Space} {i : Nat}
    (hm : (spaceMemory t sp).read i = (spaceMemory s sp).read i) (he : t.epoch = s.epoch) :
    byteAt t sp i = byteAt s sp i := by
  simp [byteAt, hm, he]

/-- A listed byte is what the index holds. -/
theorem byteAt_of_read {s : State} {sp : Space} {i : Nat} {b : Byte}
    (h : (spaceMemory s sp).read i = some b) : byteAt s sp i = b := by
  simp [byteAt, h]

end Sys2Proof.Machine
end

