-- ==== Sys2Proof/Laws/State.lean ====
section
/-! SUPPORT. What each named update of the state does to each field, one lemma a field, so that no proof unfolds a
record update. -/

namespace Sys2Proof.Machine

@[simp] theorem emit_cfg (e : DiagEvent) (s : State) : (emit e s).cfg = s.cfg := rfl
@[simp] theorem emit_buf (e : DiagEvent) (s : State) : (emit e s).buf = s.buf := rfl
@[simp] theorem emit_cursor (e : DiagEvent) (s : State) : (emit e s).cursor = s.cursor := rfl
@[simp] theorem emit_cp (e : DiagEvent) (s : State) : (emit e s).cp = s.cp := rfl
@[simp] theorem emit_s1Seen (e : DiagEvent) (s : State) : (emit e s).s1Seen = s.s1Seen := rfl
@[simp] theorem emit_tStart (e : DiagEvent) (s : State) : (emit e s).tStart = s.tStart := rfl
@[simp] theorem emit_rxKind (e : DiagEvent) (s : State) : (emit e s).rxKind = s.rxKind := rfl
@[simp] theorem emit_rxPort (e : DiagEvent) (s : State) : (emit e s).rxPort = s.rxPort := rfl
@[simp] theorem emit_rxLen (e : DiagEvent) (s : State) : (emit e s).rxLen = s.rxLen := rfl
@[simp] theorem emit_rxp (e : DiagEvent) (s : State) : (emit e s).rxp = s.rxp := rfl
@[simp] theorem emit_timeout (e : DiagEvent) (s : State) : (emit e s).timeout = s.timeout := rfl
@[simp] theorem emit_ctl (e : DiagEvent) (s : State) : (emit e s).ctl = s.ctl := rfl
@[simp] theorem emit_tReq (e : DiagEvent) (s : State) : (emit e s).tReq = s.tReq := rfl
@[simp] theorem emit_qValue (e : DiagEvent) (s : State) : (emit e s).qValue = s.qValue := rfl
@[simp] theorem emit_cOk (e : DiagEvent) (s : State) : (emit e s).cOk = s.cOk := rfl
@[simp] theorem emit_sDevtype (e : DiagEvent) (s : State) : (emit e s).sDevtype = s.sDevtype := rfl
@[simp] theorem emit_revA (e : DiagEvent) (s : State) : (emit e s).revA = s.revA := rfl
@[simp] theorem emit_revB (e : DiagEvent) (s : State) : (emit e s).revB = s.revB := rfl
@[simp] theorem emit_revC (e : DiagEvent) (s : State) : (emit e s).revC = s.revC := rfl
@[simp] theorem emit_revOk (e : DiagEvent) (s : State) : (emit e s).revOk = s.revOk := rfl
@[simp] theorem emit_revIdx (e : DiagEvent) (s : State) : (emit e s).revIdx = s.revIdx := rfl
@[simp] theorem emit_val0 (e : DiagEvent) (s : State) : (emit e s).val0 = s.val0 := rfl
@[simp] theorem emit_val1 (e : DiagEvent) (s : State) : (emit e s).val1 = s.val1 := rfl
@[simp] theorem emit_val2 (e : DiagEvent) (s : State) : (emit e s).val2 = s.val2 := rfl
@[simp] theorem emit_reqOk (e : DiagEvent) (s : State) : (emit e s).reqOk = s.reqOk := rfl
@[simp] theorem emit_reqPort (e : DiagEvent) (s : State) : (emit e s).reqPort = s.reqPort := rfl
@[simp] theorem emit_reqRegister (e : DiagEvent) (s : State) : (emit e s).reqRegister = s.reqRegister := rfl
@[simp] theorem emit_reqParameter (e : DiagEvent) (s : State) : (emit e s).reqParameter = s.reqParameter := rfl
@[simp] theorem emit_curOp (e : DiagEvent) (s : State) : (emit e s).curOp = s.curOp := rfl
@[simp] theorem emit_opPort (e : DiagEvent) (s : State) : (emit e s).opPort = s.opPort := rfl
@[simp] theorem emit_opA (e : DiagEvent) (s : State) : (emit e s).opA = s.opA := rfl
@[simp] theorem emit_opB (e : DiagEvent) (s : State) : (emit e s).opB = s.opB := rfl
@[simp] theorem emit_txp (e : DiagEvent) (s : State) : (emit e s).txp = s.txp := rfl
@[simp] theorem emit_busy (e : DiagEvent) (s : State) : (emit e s).busy = s.busy := rfl
@[simp] theorem emit_enc (e : DiagEvent) (s : State) : (emit e s).enc = s.enc := rfl
@[simp] theorem emit_rxq (e : DiagEvent) (s : State) : (emit e s).rxq = s.rxq := rfl
@[simp] theorem emit_txq (e : DiagEvent) (s : State) : (emit e s).txq = s.txq := rfl
@[simp] theorem emit_now (e : DiagEvent) (s : State) : (emit e s).now = s.now := rfl
@[simp] theorem emit_diagLog (e : DiagEvent) (s : State) : (emit e s).diagLog = s.diagLog ++ [e] := rfl
@[simp] theorem emit_refusedPulses (e : DiagEvent) (s : State) : (emit e s).refusedPulses = s.refusedPulses := rfl
@[simp] theorem emit_script (e : DiagEvent) (s : State) : (emit e s).script = s.script := rfl
@[simp] theorem emit_hostq (e : DiagEvent) (s : State) : (emit e s).hostq = s.hostq := rfl
@[simp] theorem emit_epoch (e : DiagEvent) (s : State) : (emit e s).epoch = s.epoch := rfl

@[simp] theorem writeUnit_cfg (u : LineUnit) (s : State) : (writeUnit u s).cfg = s.cfg := rfl
@[simp] theorem writeUnit_buf (u : LineUnit) (s : State) : (writeUnit u s).buf = s.buf := rfl
@[simp] theorem writeUnit_cursor (u : LineUnit) (s : State) : (writeUnit u s).cursor = s.cursor := rfl
@[simp] theorem writeUnit_cp (u : LineUnit) (s : State) : (writeUnit u s).cp = s.cp := rfl
@[simp] theorem writeUnit_s1Seen (u : LineUnit) (s : State) : (writeUnit u s).s1Seen = s.s1Seen := rfl
@[simp] theorem writeUnit_tStart (u : LineUnit) (s : State) : (writeUnit u s).tStart = s.tStart := rfl
@[simp] theorem writeUnit_rxKind (u : LineUnit) (s : State) : (writeUnit u s).rxKind = s.rxKind := rfl
@[simp] theorem writeUnit_rxPort (u : LineUnit) (s : State) : (writeUnit u s).rxPort = s.rxPort := rfl
@[simp] theorem writeUnit_rxLen (u : LineUnit) (s : State) : (writeUnit u s).rxLen = s.rxLen := rfl
@[simp] theorem writeUnit_rxp (u : LineUnit) (s : State) : (writeUnit u s).rxp = s.rxp := rfl
@[simp] theorem writeUnit_timeout (u : LineUnit) (s : State) : (writeUnit u s).timeout = s.timeout := rfl
@[simp] theorem writeUnit_ctl (u : LineUnit) (s : State) : (writeUnit u s).ctl = s.ctl := rfl
@[simp] theorem writeUnit_tReq (u : LineUnit) (s : State) : (writeUnit u s).tReq = s.tReq := rfl
@[simp] theorem writeUnit_qValue (u : LineUnit) (s : State) : (writeUnit u s).qValue = s.qValue := rfl
@[simp] theorem writeUnit_cOk (u : LineUnit) (s : State) : (writeUnit u s).cOk = s.cOk := rfl
@[simp] theorem writeUnit_sDevtype (u : LineUnit) (s : State) : (writeUnit u s).sDevtype = s.sDevtype := rfl
@[simp] theorem writeUnit_revA (u : LineUnit) (s : State) : (writeUnit u s).revA = s.revA := rfl
@[simp] theorem writeUnit_revB (u : LineUnit) (s : State) : (writeUnit u s).revB = s.revB := rfl
@[simp] theorem writeUnit_revC (u : LineUnit) (s : State) : (writeUnit u s).revC = s.revC := rfl
@[simp] theorem writeUnit_revOk (u : LineUnit) (s : State) : (writeUnit u s).revOk = s.revOk := rfl
@[simp] theorem writeUnit_revIdx (u : LineUnit) (s : State) : (writeUnit u s).revIdx = s.revIdx := rfl
@[simp] theorem writeUnit_val0 (u : LineUnit) (s : State) : (writeUnit u s).val0 = s.val0 := rfl
@[simp] theorem writeUnit_val1 (u : LineUnit) (s : State) : (writeUnit u s).val1 = s.val1 := rfl
@[simp] theorem writeUnit_val2 (u : LineUnit) (s : State) : (writeUnit u s).val2 = s.val2 := rfl
@[simp] theorem writeUnit_reqOk (u : LineUnit) (s : State) : (writeUnit u s).reqOk = s.reqOk := rfl
@[simp] theorem writeUnit_reqPort (u : LineUnit) (s : State) : (writeUnit u s).reqPort = s.reqPort := rfl
@[simp] theorem writeUnit_reqRegister (u : LineUnit) (s : State) : (writeUnit u s).reqRegister = s.reqRegister := rfl
@[simp] theorem writeUnit_reqParameter (u : LineUnit) (s : State) : (writeUnit u s).reqParameter = s.reqParameter := rfl
@[simp] theorem writeUnit_curOp (u : LineUnit) (s : State) : (writeUnit u s).curOp = s.curOp := rfl
@[simp] theorem writeUnit_opPort (u : LineUnit) (s : State) : (writeUnit u s).opPort = s.opPort := rfl
@[simp] theorem writeUnit_opA (u : LineUnit) (s : State) : (writeUnit u s).opA = s.opA := rfl
@[simp] theorem writeUnit_opB (u : LineUnit) (s : State) : (writeUnit u s).opB = s.opB := rfl
@[simp] theorem writeUnit_txp (u : LineUnit) (s : State) : (writeUnit u s).txp = s.txp := rfl
@[simp] theorem writeUnit_busy (u : LineUnit) (s : State) : (writeUnit u s).busy = s.busy := rfl
@[simp] theorem writeUnit_enc (u : LineUnit) (s : State) : (writeUnit u s).enc = s.enc := rfl
@[simp] theorem writeUnit_rxq (u : LineUnit) (s : State) : (writeUnit u s).rxq = s.rxq := rfl
@[simp] theorem writeUnit_txq (u : LineUnit) (s : State) : (writeUnit u s).txq = s.txq ++ [u] := rfl
@[simp] theorem writeUnit_now (u : LineUnit) (s : State) : (writeUnit u s).now = s.now := rfl
@[simp] theorem writeUnit_diagLog (u : LineUnit) (s : State) : (writeUnit u s).diagLog = s.diagLog := rfl
@[simp] theorem writeUnit_refusedPulses (u : LineUnit) (s : State) : (writeUnit u s).refusedPulses = s.refusedPulses := rfl
@[simp] theorem writeUnit_script (u : LineUnit) (s : State) : (writeUnit u s).script = s.script := rfl
@[simp] theorem writeUnit_hostq (u : LineUnit) (s : State) : (writeUnit u s).hostq = s.hostq := rfl
@[simp] theorem writeUnit_epoch (u : LineUnit) (s : State) : (writeUnit u s).epoch = s.epoch := rfl

@[simp] theorem refuse_cfg (w : CmdWord) (s : State) : (refuse w s).cfg = s.cfg := rfl
@[simp] theorem refuse_buf (w : CmdWord) (s : State) : (refuse w s).buf = s.buf := rfl
@[simp] theorem refuse_cursor (w : CmdWord) (s : State) : (refuse w s).cursor = s.cursor := rfl
@[simp] theorem refuse_cp (w : CmdWord) (s : State) : (refuse w s).cp = s.cp := rfl
@[simp] theorem refuse_s1Seen (w : CmdWord) (s : State) : (refuse w s).s1Seen = s.s1Seen := rfl
@[simp] theorem refuse_tStart (w : CmdWord) (s : State) : (refuse w s).tStart = s.tStart := rfl
@[simp] theorem refuse_rxKind (w : CmdWord) (s : State) : (refuse w s).rxKind = s.rxKind := rfl
@[simp] theorem refuse_rxPort (w : CmdWord) (s : State) : (refuse w s).rxPort = s.rxPort := rfl
@[simp] theorem refuse_rxLen (w : CmdWord) (s : State) : (refuse w s).rxLen = s.rxLen := rfl
@[simp] theorem refuse_rxp (w : CmdWord) (s : State) : (refuse w s).rxp = s.rxp := rfl
@[simp] theorem refuse_timeout (w : CmdWord) (s : State) : (refuse w s).timeout = s.timeout := rfl
@[simp] theorem refuse_ctl (w : CmdWord) (s : State) : (refuse w s).ctl = s.ctl := rfl
@[simp] theorem refuse_tReq (w : CmdWord) (s : State) : (refuse w s).tReq = s.tReq := rfl
@[simp] theorem refuse_qValue (w : CmdWord) (s : State) : (refuse w s).qValue = s.qValue := rfl
@[simp] theorem refuse_cOk (w : CmdWord) (s : State) : (refuse w s).cOk = s.cOk := rfl
@[simp] theorem refuse_sDevtype (w : CmdWord) (s : State) : (refuse w s).sDevtype = s.sDevtype := rfl
@[simp] theorem refuse_revA (w : CmdWord) (s : State) : (refuse w s).revA = s.revA := rfl
@[simp] theorem refuse_revB (w : CmdWord) (s : State) : (refuse w s).revB = s.revB := rfl
@[simp] theorem refuse_revC (w : CmdWord) (s : State) : (refuse w s).revC = s.revC := rfl
@[simp] theorem refuse_revOk (w : CmdWord) (s : State) : (refuse w s).revOk = s.revOk := rfl
@[simp] theorem refuse_revIdx (w : CmdWord) (s : State) : (refuse w s).revIdx = s.revIdx := rfl
@[simp] theorem refuse_val0 (w : CmdWord) (s : State) : (refuse w s).val0 = s.val0 := rfl
@[simp] theorem refuse_val1 (w : CmdWord) (s : State) : (refuse w s).val1 = s.val1 := rfl
@[simp] theorem refuse_val2 (w : CmdWord) (s : State) : (refuse w s).val2 = s.val2 := rfl
@[simp] theorem refuse_reqOk (w : CmdWord) (s : State) : (refuse w s).reqOk = s.reqOk := rfl
@[simp] theorem refuse_reqPort (w : CmdWord) (s : State) : (refuse w s).reqPort = s.reqPort := rfl
@[simp] theorem refuse_reqRegister (w : CmdWord) (s : State) : (refuse w s).reqRegister = s.reqRegister := rfl
@[simp] theorem refuse_reqParameter (w : CmdWord) (s : State) : (refuse w s).reqParameter = s.reqParameter := rfl
@[simp] theorem refuse_curOp (w : CmdWord) (s : State) : (refuse w s).curOp = s.curOp := rfl
@[simp] theorem refuse_opPort (w : CmdWord) (s : State) : (refuse w s).opPort = s.opPort := rfl
@[simp] theorem refuse_opA (w : CmdWord) (s : State) : (refuse w s).opA = s.opA := rfl
@[simp] theorem refuse_opB (w : CmdWord) (s : State) : (refuse w s).opB = s.opB := rfl
@[simp] theorem refuse_txp (w : CmdWord) (s : State) : (refuse w s).txp = s.txp := rfl
@[simp] theorem refuse_busy (w : CmdWord) (s : State) : (refuse w s).busy = s.busy := rfl
@[simp] theorem refuse_enc (w : CmdWord) (s : State) : (refuse w s).enc = s.enc := rfl
@[simp] theorem refuse_rxq (w : CmdWord) (s : State) : (refuse w s).rxq = s.rxq := rfl
@[simp] theorem refuse_txq (w : CmdWord) (s : State) : (refuse w s).txq = s.txq := rfl
@[simp] theorem refuse_now (w : CmdWord) (s : State) : (refuse w s).now = s.now := rfl
@[simp] theorem refuse_diagLog (w : CmdWord) (s : State) : (refuse w s).diagLog = s.diagLog ++ [.refused (refusedData w)] := rfl
@[simp] theorem refuse_refusedPulses (w : CmdWord) (s : State) : (refuse w s).refusedPulses = s.refusedPulses + 1 := rfl
@[simp] theorem refuse_script (w : CmdWord) (s : State) : (refuse w s).script = s.script := rfl
@[simp] theorem refuse_hostq (w : CmdWord) (s : State) : (refuse w s).hostq = s.hostq := rfl
@[simp] theorem refuse_epoch (w : CmdWord) (s : State) : (refuse w s).epoch = s.epoch := rfl

@[simp] theorem accept_cfg (w : CmdWord) (s : State) : (accept w s).cfg = s.cfg := rfl
@[simp] theorem accept_buf (w : CmdWord) (s : State) : (accept w s).buf = s.buf := rfl
@[simp] theorem accept_cursor (w : CmdWord) (s : State) : (accept w s).cursor = s.cursor := rfl
@[simp] theorem accept_cp (w : CmdWord) (s : State) : (accept w s).cp = s.cp := rfl
@[simp] theorem accept_s1Seen (w : CmdWord) (s : State) : (accept w s).s1Seen = s.s1Seen := rfl
@[simp] theorem accept_tStart (w : CmdWord) (s : State) : (accept w s).tStart = s.tStart := rfl
@[simp] theorem accept_rxKind (w : CmdWord) (s : State) : (accept w s).rxKind = s.rxKind := rfl
@[simp] theorem accept_rxPort (w : CmdWord) (s : State) : (accept w s).rxPort = s.rxPort := rfl
@[simp] theorem accept_rxLen (w : CmdWord) (s : State) : (accept w s).rxLen = s.rxLen := rfl
@[simp] theorem accept_rxp (w : CmdWord) (s : State) : (accept w s).rxp = s.rxp := rfl
@[simp] theorem accept_timeout (w : CmdWord) (s : State) : (accept w s).timeout = s.timeout := rfl
@[simp] theorem accept_ctl (w : CmdWord) (s : State) : (accept w s).ctl = s.ctl := rfl
@[simp] theorem accept_tReq (w : CmdWord) (s : State) : (accept w s).tReq = s.tReq := rfl
@[simp] theorem accept_qValue (w : CmdWord) (s : State) : (accept w s).qValue = s.qValue := rfl
@[simp] theorem accept_cOk (w : CmdWord) (s : State) : (accept w s).cOk = s.cOk := rfl
@[simp] theorem accept_sDevtype (w : CmdWord) (s : State) : (accept w s).sDevtype = s.sDevtype := rfl
@[simp] theorem accept_revA (w : CmdWord) (s : State) : (accept w s).revA = s.revA := rfl
@[simp] theorem accept_revB (w : CmdWord) (s : State) : (accept w s).revB = s.revB := rfl
@[simp] theorem accept_revC (w : CmdWord) (s : State) : (accept w s).revC = s.revC := rfl
@[simp] theorem accept_revOk (w : CmdWord) (s : State) : (accept w s).revOk = s.revOk := rfl
@[simp] theorem accept_revIdx (w : CmdWord) (s : State) : (accept w s).revIdx = s.revIdx := rfl
@[simp] theorem accept_val0 (w : CmdWord) (s : State) : (accept w s).val0 = s.val0 := rfl
@[simp] theorem accept_val1 (w : CmdWord) (s : State) : (accept w s).val1 = s.val1 := rfl
@[simp] theorem accept_val2 (w : CmdWord) (s : State) : (accept w s).val2 = s.val2 := rfl
@[simp] theorem accept_reqOk (w : CmdWord) (s : State) : (accept w s).reqOk = s.reqOk := rfl
@[simp] theorem accept_reqPort (w : CmdWord) (s : State) : (accept w s).reqPort = s.reqPort := rfl
@[simp] theorem accept_reqRegister (w : CmdWord) (s : State) : (accept w s).reqRegister = s.reqRegister := rfl
@[simp] theorem accept_reqParameter (w : CmdWord) (s : State) : (accept w s).reqParameter = s.reqParameter := rfl
@[simp] theorem accept_curOp (w : CmdWord) (s : State) : (accept w s).curOp = cmdOp w := rfl
@[simp] theorem accept_opPort (w : CmdWord) (s : State) : (accept w s).opPort = cmdPort w := rfl
@[simp] theorem accept_opA (w : CmdWord) (s : State) : (accept w s).opA = cmdA w := rfl
@[simp] theorem accept_opB (w : CmdWord) (s : State) : (accept w s).opB = cmdB w := rfl
@[simp] theorem accept_txp (w : CmdWord) (s : State) : (accept w s).txp = s.txp := rfl
@[simp] theorem accept_busy (w : CmdWord) (s : State) : (accept w s).busy = true := rfl
@[simp] theorem accept_enc (w : CmdWord) (s : State) : (accept w s).enc = s.enc := rfl
@[simp] theorem accept_rxq (w : CmdWord) (s : State) : (accept w s).rxq = s.rxq := rfl
@[simp] theorem accept_txq (w : CmdWord) (s : State) : (accept w s).txq = s.txq := rfl
@[simp] theorem accept_now (w : CmdWord) (s : State) : (accept w s).now = s.now := rfl
@[simp] theorem accept_diagLog (w : CmdWord) (s : State) : (accept w s).diagLog = s.diagLog := rfl
@[simp] theorem accept_refusedPulses (w : CmdWord) (s : State) : (accept w s).refusedPulses = s.refusedPulses := rfl
@[simp] theorem accept_script (w : CmdWord) (s : State) : (accept w s).script = s.script := rfl
@[simp] theorem accept_hostq (w : CmdWord) (s : State) : (accept w s).hostq = s.hostq := rfl
@[simp] theorem accept_epoch (w : CmdWord) (s : State) : (accept w s).epoch = s.epoch := rfl

@[simp] theorem endOp_cfg (s : State) : (endOp s).cfg = s.cfg := rfl
@[simp] theorem endOp_buf (s : State) : (endOp s).buf = s.buf := rfl
@[simp] theorem endOp_cursor (s : State) : (endOp s).cursor = s.cursor := rfl
@[simp] theorem endOp_cp (s : State) : (endOp s).cp = s.cp := rfl
@[simp] theorem endOp_s1Seen (s : State) : (endOp s).s1Seen = s.s1Seen := rfl
@[simp] theorem endOp_tStart (s : State) : (endOp s).tStart = s.tStart := rfl
@[simp] theorem endOp_rxKind (s : State) : (endOp s).rxKind = s.rxKind := rfl
@[simp] theorem endOp_rxPort (s : State) : (endOp s).rxPort = s.rxPort := rfl
@[simp] theorem endOp_rxLen (s : State) : (endOp s).rxLen = s.rxLen := rfl
@[simp] theorem endOp_rxp (s : State) : (endOp s).rxp = s.rxp := rfl
@[simp] theorem endOp_timeout (s : State) : (endOp s).timeout = s.timeout := rfl
@[simp] theorem endOp_ctl (s : State) : (endOp s).ctl = s.ctl := rfl
@[simp] theorem endOp_tReq (s : State) : (endOp s).tReq = s.tReq := rfl
@[simp] theorem endOp_qValue (s : State) : (endOp s).qValue = s.qValue := rfl
@[simp] theorem endOp_cOk (s : State) : (endOp s).cOk = s.cOk := rfl
@[simp] theorem endOp_sDevtype (s : State) : (endOp s).sDevtype = s.sDevtype := rfl
@[simp] theorem endOp_revA (s : State) : (endOp s).revA = s.revA := rfl
@[simp] theorem endOp_revB (s : State) : (endOp s).revB = s.revB := rfl
@[simp] theorem endOp_revC (s : State) : (endOp s).revC = s.revC := rfl
@[simp] theorem endOp_revOk (s : State) : (endOp s).revOk = s.revOk := rfl
@[simp] theorem endOp_revIdx (s : State) : (endOp s).revIdx = s.revIdx := rfl
@[simp] theorem endOp_val0 (s : State) : (endOp s).val0 = s.val0 := rfl
@[simp] theorem endOp_val1 (s : State) : (endOp s).val1 = s.val1 := rfl
@[simp] theorem endOp_val2 (s : State) : (endOp s).val2 = s.val2 := rfl
@[simp] theorem endOp_reqOk (s : State) : (endOp s).reqOk = s.reqOk := rfl
@[simp] theorem endOp_reqPort (s : State) : (endOp s).reqPort = s.reqPort := rfl
@[simp] theorem endOp_reqRegister (s : State) : (endOp s).reqRegister = s.reqRegister := rfl
@[simp] theorem endOp_reqParameter (s : State) : (endOp s).reqParameter = s.reqParameter := rfl
@[simp] theorem endOp_curOp (s : State) : (endOp s).curOp = s.curOp := rfl
@[simp] theorem endOp_opPort (s : State) : (endOp s).opPort = s.opPort := rfl
@[simp] theorem endOp_opA (s : State) : (endOp s).opA = s.opA := rfl
@[simp] theorem endOp_opB (s : State) : (endOp s).opB = s.opB := rfl
@[simp] theorem endOp_txp (s : State) : (endOp s).txp = s.txp := rfl
@[simp] theorem endOp_busy (s : State) : (endOp s).busy = false := rfl
@[simp] theorem endOp_enc (s : State) : (endOp s).enc = s.enc := rfl
@[simp] theorem endOp_rxq (s : State) : (endOp s).rxq = s.rxq := rfl
@[simp] theorem endOp_txq (s : State) : (endOp s).txq = s.txq := rfl
@[simp] theorem endOp_now (s : State) : (endOp s).now = s.now := rfl
@[simp] theorem endOp_diagLog (s : State) : (endOp s).diagLog = s.diagLog := rfl
@[simp] theorem endOp_refusedPulses (s : State) : (endOp s).refusedPulses = s.refusedPulses := rfl
@[simp] theorem endOp_script (s : State) : (endOp s).script = s.script := rfl
@[simp] theorem endOp_hostq (s : State) : (endOp s).hostq = s.hostq := rfl
@[simp] theorem endOp_epoch (s : State) : (endOp s).epoch = s.epoch := rfl

@[simp] theorem raiseKind_cfg (k : Kind) (s : State) : (raiseKind k s).cfg = s.cfg := rfl
@[simp] theorem raiseKind_buf (k : Kind) (s : State) : (raiseKind k s).buf = s.buf := rfl
@[simp] theorem raiseKind_cursor (k : Kind) (s : State) : (raiseKind k s).cursor = s.cursor := rfl
@[simp] theorem raiseKind_cp (k : Kind) (s : State) : (raiseKind k s).cp = .dOff := rfl
@[simp] theorem raiseKind_s1Seen (k : Kind) (s : State) : (raiseKind k s).s1Seen = s.s1Seen := rfl
@[simp] theorem raiseKind_tStart (k : Kind) (s : State) : (raiseKind k s).tStart = s.tStart := rfl
@[simp] theorem raiseKind_rxKind (k : Kind) (s : State) : (raiseKind k s).rxKind = k := rfl
@[simp] theorem raiseKind_rxPort (k : Kind) (s : State) : (raiseKind k s).rxPort = s.rxPort := rfl
@[simp] theorem raiseKind_rxLen (k : Kind) (s : State) : (raiseKind k s).rxLen = s.rxLen := rfl
@[simp] theorem raiseKind_rxp (k : Kind) (s : State) : (raiseKind k s).rxp = s.rxp := rfl
@[simp] theorem raiseKind_timeout (k : Kind) (s : State) : (raiseKind k s).timeout = s.timeout := rfl
@[simp] theorem raiseKind_ctl (k : Kind) (s : State) : (raiseKind k s).ctl = s.ctl := rfl
@[simp] theorem raiseKind_tReq (k : Kind) (s : State) : (raiseKind k s).tReq = s.tReq := rfl
@[simp] theorem raiseKind_qValue (k : Kind) (s : State) : (raiseKind k s).qValue = s.qValue := rfl
@[simp] theorem raiseKind_cOk (k : Kind) (s : State) : (raiseKind k s).cOk = s.cOk := rfl
@[simp] theorem raiseKind_sDevtype (k : Kind) (s : State) : (raiseKind k s).sDevtype = s.sDevtype := rfl
@[simp] theorem raiseKind_revA (k : Kind) (s : State) : (raiseKind k s).revA = s.revA := rfl
@[simp] theorem raiseKind_revB (k : Kind) (s : State) : (raiseKind k s).revB = s.revB := rfl
@[simp] theorem raiseKind_revC (k : Kind) (s : State) : (raiseKind k s).revC = s.revC := rfl
@[simp] theorem raiseKind_revOk (k : Kind) (s : State) : (raiseKind k s).revOk = s.revOk := rfl
@[simp] theorem raiseKind_revIdx (k : Kind) (s : State) : (raiseKind k s).revIdx = s.revIdx := rfl
@[simp] theorem raiseKind_val0 (k : Kind) (s : State) : (raiseKind k s).val0 = s.val0 := rfl
@[simp] theorem raiseKind_val1 (k : Kind) (s : State) : (raiseKind k s).val1 = s.val1 := rfl
@[simp] theorem raiseKind_val2 (k : Kind) (s : State) : (raiseKind k s).val2 = s.val2 := rfl
@[simp] theorem raiseKind_reqOk (k : Kind) (s : State) : (raiseKind k s).reqOk = s.reqOk := rfl
@[simp] theorem raiseKind_reqPort (k : Kind) (s : State) : (raiseKind k s).reqPort = s.reqPort := rfl
@[simp] theorem raiseKind_reqRegister (k : Kind) (s : State) : (raiseKind k s).reqRegister = s.reqRegister := rfl
@[simp] theorem raiseKind_reqParameter (k : Kind) (s : State) : (raiseKind k s).reqParameter = s.reqParameter := rfl
@[simp] theorem raiseKind_curOp (k : Kind) (s : State) : (raiseKind k s).curOp = s.curOp := rfl
@[simp] theorem raiseKind_opPort (k : Kind) (s : State) : (raiseKind k s).opPort = s.opPort := rfl
@[simp] theorem raiseKind_opA (k : Kind) (s : State) : (raiseKind k s).opA = s.opA := rfl
@[simp] theorem raiseKind_opB (k : Kind) (s : State) : (raiseKind k s).opB = s.opB := rfl
@[simp] theorem raiseKind_txp (k : Kind) (s : State) : (raiseKind k s).txp = s.txp := rfl
@[simp] theorem raiseKind_busy (k : Kind) (s : State) : (raiseKind k s).busy = s.busy := rfl
@[simp] theorem raiseKind_enc (k : Kind) (s : State) : (raiseKind k s).enc = s.enc := rfl
@[simp] theorem raiseKind_rxq (k : Kind) (s : State) : (raiseKind k s).rxq = s.rxq := rfl
@[simp] theorem raiseKind_txq (k : Kind) (s : State) : (raiseKind k s).txq = s.txq := rfl
@[simp] theorem raiseKind_now (k : Kind) (s : State) : (raiseKind k s).now = s.now := rfl
@[simp] theorem raiseKind_diagLog (k : Kind) (s : State) : (raiseKind k s).diagLog = s.diagLog := rfl
@[simp] theorem raiseKind_refusedPulses (k : Kind) (s : State) : (raiseKind k s).refusedPulses = s.refusedPulses := rfl
@[simp] theorem raiseKind_script (k : Kind) (s : State) : (raiseKind k s).script = s.script := rfl
@[simp] theorem raiseKind_hostq (k : Kind) (s : State) : (raiseKind k s).hostq = s.hostq := rfl
@[simp] theorem raiseKind_epoch (k : Kind) (s : State) : (raiseKind k s).epoch = s.epoch := rfl

@[simp] theorem storeTxp_cfg (i : Nat) (b : Byte) (s : State) : (storeTxp i b s).cfg = s.cfg := rfl
@[simp] theorem storeTxp_buf (i : Nat) (b : Byte) (s : State) : (storeTxp i b s).buf = s.buf := rfl
@[simp] theorem storeTxp_cursor (i : Nat) (b : Byte) (s : State) : (storeTxp i b s).cursor = s.cursor := rfl
@[simp] theorem storeTxp_cp (i : Nat) (b : Byte) (s : State) : (storeTxp i b s).cp = s.cp := rfl
@[simp] theorem storeTxp_s1Seen (i : Nat) (b : Byte) (s : State) : (storeTxp i b s).s1Seen = s.s1Seen := rfl
@[simp] theorem storeTxp_tStart (i : Nat) (b : Byte) (s : State) : (storeTxp i b s).tStart = s.tStart := rfl
@[simp] theorem storeTxp_rxKind (i : Nat) (b : Byte) (s : State) : (storeTxp i b s).rxKind = s.rxKind := rfl
@[simp] theorem storeTxp_rxPort (i : Nat) (b : Byte) (s : State) : (storeTxp i b s).rxPort = s.rxPort := rfl
@[simp] theorem storeTxp_rxLen (i : Nat) (b : Byte) (s : State) : (storeTxp i b s).rxLen = s.rxLen := rfl
@[simp] theorem storeTxp_rxp (i : Nat) (b : Byte) (s : State) : (storeTxp i b s).rxp = s.rxp := rfl
@[simp] theorem storeTxp_timeout (i : Nat) (b : Byte) (s : State) : (storeTxp i b s).timeout = s.timeout := rfl
@[simp] theorem storeTxp_ctl (i : Nat) (b : Byte) (s : State) : (storeTxp i b s).ctl = s.ctl := rfl
@[simp] theorem storeTxp_tReq (i : Nat) (b : Byte) (s : State) : (storeTxp i b s).tReq = s.tReq := rfl
@[simp] theorem storeTxp_qValue (i : Nat) (b : Byte) (s : State) : (storeTxp i b s).qValue = s.qValue := rfl
@[simp] theorem storeTxp_cOk (i : Nat) (b : Byte) (s : State) : (storeTxp i b s).cOk = s.cOk := rfl
@[simp] theorem storeTxp_sDevtype (i : Nat) (b : Byte) (s : State) : (storeTxp i b s).sDevtype = s.sDevtype := rfl
@[simp] theorem storeTxp_revA (i : Nat) (b : Byte) (s : State) : (storeTxp i b s).revA = s.revA := rfl
@[simp] theorem storeTxp_revB (i : Nat) (b : Byte) (s : State) : (storeTxp i b s).revB = s.revB := rfl
@[simp] theorem storeTxp_revC (i : Nat) (b : Byte) (s : State) : (storeTxp i b s).revC = s.revC := rfl
@[simp] theorem storeTxp_revOk (i : Nat) (b : Byte) (s : State) : (storeTxp i b s).revOk = s.revOk := rfl
@[simp] theorem storeTxp_revIdx (i : Nat) (b : Byte) (s : State) : (storeTxp i b s).revIdx = s.revIdx := rfl
@[simp] theorem storeTxp_val0 (i : Nat) (b : Byte) (s : State) : (storeTxp i b s).val0 = s.val0 := rfl
@[simp] theorem storeTxp_val1 (i : Nat) (b : Byte) (s : State) : (storeTxp i b s).val1 = s.val1 := rfl
@[simp] theorem storeTxp_val2 (i : Nat) (b : Byte) (s : State) : (storeTxp i b s).val2 = s.val2 := rfl
@[simp] theorem storeTxp_reqOk (i : Nat) (b : Byte) (s : State) : (storeTxp i b s).reqOk = s.reqOk := rfl
@[simp] theorem storeTxp_reqPort (i : Nat) (b : Byte) (s : State) : (storeTxp i b s).reqPort = s.reqPort := rfl
@[simp] theorem storeTxp_reqRegister (i : Nat) (b : Byte) (s : State) : (storeTxp i b s).reqRegister = s.reqRegister := rfl
@[simp] theorem storeTxp_reqParameter (i : Nat) (b : Byte) (s : State) : (storeTxp i b s).reqParameter = s.reqParameter := rfl
@[simp] theorem storeTxp_curOp (i : Nat) (b : Byte) (s : State) : (storeTxp i b s).curOp = s.curOp := rfl
@[simp] theorem storeTxp_opPort (i : Nat) (b : Byte) (s : State) : (storeTxp i b s).opPort = s.opPort := rfl
@[simp] theorem storeTxp_opA (i : Nat) (b : Byte) (s : State) : (storeTxp i b s).opA = s.opA := rfl
@[simp] theorem storeTxp_opB (i : Nat) (b : Byte) (s : State) : (storeTxp i b s).opB = s.opB := rfl
@[simp] theorem storeTxp_txp (i : Nat) (b : Byte) (s : State) : (storeTxp i b s).txp = s.txp.write i b := rfl
@[simp] theorem storeTxp_busy (i : Nat) (b : Byte) (s : State) : (storeTxp i b s).busy = s.busy := rfl
@[simp] theorem storeTxp_enc (i : Nat) (b : Byte) (s : State) : (storeTxp i b s).enc = s.enc := rfl
@[simp] theorem storeTxp_rxq (i : Nat) (b : Byte) (s : State) : (storeTxp i b s).rxq = s.rxq := rfl
@[simp] theorem storeTxp_txq (i : Nat) (b : Byte) (s : State) : (storeTxp i b s).txq = s.txq := rfl
@[simp] theorem storeTxp_now (i : Nat) (b : Byte) (s : State) : (storeTxp i b s).now = s.now := rfl
@[simp] theorem storeTxp_diagLog (i : Nat) (b : Byte) (s : State) : (storeTxp i b s).diagLog = s.diagLog := rfl
@[simp] theorem storeTxp_refusedPulses (i : Nat) (b : Byte) (s : State) : (storeTxp i b s).refusedPulses = s.refusedPulses := rfl
@[simp] theorem storeTxp_script (i : Nat) (b : Byte) (s : State) : (storeTxp i b s).script = s.script := rfl
@[simp] theorem storeTxp_hostq (i : Nat) (b : Byte) (s : State) : (storeTxp i b s).hostq = s.hostq := rfl
@[simp] theorem storeTxp_epoch (i : Nat) (b : Byte) (s : State) : (storeTxp i b s).epoch = s.epoch := rfl

@[simp] theorem startFrame_cfg (p : Byte) (d : List Byte) (s : State) : (startFrame p d s).cfg = s.cfg := rfl
@[simp] theorem startFrame_buf (p : Byte) (d : List Byte) (s : State) : (startFrame p d s).buf = s.buf := rfl
@[simp] theorem startFrame_cursor (p : Byte) (d : List Byte) (s : State) : (startFrame p d s).cursor = s.cursor := rfl
@[simp] theorem startFrame_cp (p : Byte) (d : List Byte) (s : State) : (startFrame p d s).cp = s.cp := rfl
@[simp] theorem startFrame_s1Seen (p : Byte) (d : List Byte) (s : State) : (startFrame p d s).s1Seen = s.s1Seen := rfl
@[simp] theorem startFrame_tStart (p : Byte) (d : List Byte) (s : State) : (startFrame p d s).tStart = s.tStart := rfl
@[simp] theorem startFrame_rxKind (p : Byte) (d : List Byte) (s : State) : (startFrame p d s).rxKind = s.rxKind := rfl
@[simp] theorem startFrame_rxPort (p : Byte) (d : List Byte) (s : State) : (startFrame p d s).rxPort = s.rxPort := rfl
@[simp] theorem startFrame_rxLen (p : Byte) (d : List Byte) (s : State) : (startFrame p d s).rxLen = s.rxLen := rfl
@[simp] theorem startFrame_rxp (p : Byte) (d : List Byte) (s : State) : (startFrame p d s).rxp = s.rxp := rfl
@[simp] theorem startFrame_timeout (p : Byte) (d : List Byte) (s : State) : (startFrame p d s).timeout = s.timeout := rfl
@[simp] theorem startFrame_ctl (p : Byte) (d : List Byte) (s : State) : (startFrame p d s).ctl = s.ctl := rfl
@[simp] theorem startFrame_tReq (p : Byte) (d : List Byte) (s : State) : (startFrame p d s).tReq = s.tReq := rfl
@[simp] theorem startFrame_qValue (p : Byte) (d : List Byte) (s : State) : (startFrame p d s).qValue = s.qValue := rfl
@[simp] theorem startFrame_cOk (p : Byte) (d : List Byte) (s : State) : (startFrame p d s).cOk = s.cOk := rfl
@[simp] theorem startFrame_sDevtype (p : Byte) (d : List Byte) (s : State) : (startFrame p d s).sDevtype = s.sDevtype := rfl
@[simp] theorem startFrame_revA (p : Byte) (d : List Byte) (s : State) : (startFrame p d s).revA = s.revA := rfl
@[simp] theorem startFrame_revB (p : Byte) (d : List Byte) (s : State) : (startFrame p d s).revB = s.revB := rfl
@[simp] theorem startFrame_revC (p : Byte) (d : List Byte) (s : State) : (startFrame p d s).revC = s.revC := rfl
@[simp] theorem startFrame_revOk (p : Byte) (d : List Byte) (s : State) : (startFrame p d s).revOk = s.revOk := rfl
@[simp] theorem startFrame_revIdx (p : Byte) (d : List Byte) (s : State) : (startFrame p d s).revIdx = s.revIdx := rfl
@[simp] theorem startFrame_val0 (p : Byte) (d : List Byte) (s : State) : (startFrame p d s).val0 = s.val0 := rfl
@[simp] theorem startFrame_val1 (p : Byte) (d : List Byte) (s : State) : (startFrame p d s).val1 = s.val1 := rfl
@[simp] theorem startFrame_val2 (p : Byte) (d : List Byte) (s : State) : (startFrame p d s).val2 = s.val2 := rfl
@[simp] theorem startFrame_reqOk (p : Byte) (d : List Byte) (s : State) : (startFrame p d s).reqOk = s.reqOk := rfl
@[simp] theorem startFrame_reqPort (p : Byte) (d : List Byte) (s : State) : (startFrame p d s).reqPort = s.reqPort := rfl
@[simp] theorem startFrame_reqRegister (p : Byte) (d : List Byte) (s : State) : (startFrame p d s).reqRegister = s.reqRegister := rfl
@[simp] theorem startFrame_reqParameter (p : Byte) (d : List Byte) (s : State) : (startFrame p d s).reqParameter = s.reqParameter := rfl
@[simp] theorem startFrame_curOp (p : Byte) (d : List Byte) (s : State) : (startFrame p d s).curOp = s.curOp := rfl
@[simp] theorem startFrame_opPort (p : Byte) (d : List Byte) (s : State) : (startFrame p d s).opPort = s.opPort := rfl
@[simp] theorem startFrame_opA (p : Byte) (d : List Byte) (s : State) : (startFrame p d s).opA = s.opA := rfl
@[simp] theorem startFrame_opB (p : Byte) (d : List Byte) (s : State) : (startFrame p d s).opB = s.opB := rfl
@[simp] theorem startFrame_txp (p : Byte) (d : List Byte) (s : State) : (startFrame p d s).txp = s.txp := rfl
@[simp] theorem startFrame_busy (p : Byte) (d : List Byte) (s : State) : (startFrame p d s).busy = s.busy := rfl
@[simp] theorem startFrame_enc (p : Byte) (d : List Byte) (s : State) : (startFrame p d s).enc = some { port := p, payload := d, stage := .portUnit, acc := 0 } := rfl
@[simp] theorem startFrame_rxq (p : Byte) (d : List Byte) (s : State) : (startFrame p d s).rxq = s.rxq := rfl
@[simp] theorem startFrame_txq (p : Byte) (d : List Byte) (s : State) : (startFrame p d s).txq = s.txq := rfl
@[simp] theorem startFrame_now (p : Byte) (d : List Byte) (s : State) : (startFrame p d s).now = s.now := rfl
@[simp] theorem startFrame_diagLog (p : Byte) (d : List Byte) (s : State) : (startFrame p d s).diagLog = s.diagLog := rfl
@[simp] theorem startFrame_refusedPulses (p : Byte) (d : List Byte) (s : State) : (startFrame p d s).refusedPulses = s.refusedPulses := rfl
@[simp] theorem startFrame_script (p : Byte) (d : List Byte) (s : State) : (startFrame p d s).script = s.script := rfl
@[simp] theorem startFrame_hostq (p : Byte) (d : List Byte) (s : State) : (startFrame p d s).hostq = s.hostq := rfl
@[simp] theorem startFrame_epoch (p : Byte) (d : List Byte) (s : State) : (startFrame p d s).epoch = s.epoch := rfl

@[simp] theorem startAttempt_cfg (s : State) : (startAttempt s).cfg = s.cfg := rfl
@[simp] theorem startAttempt_buf (s : State) : (startAttempt s).buf = s.buf := rfl
@[simp] theorem startAttempt_cursor (s : State) : (startAttempt s).cursor = 0 := rfl
@[simp] theorem startAttempt_cp (s : State) : (startAttempt s).cp = .dBegin := rfl
@[simp] theorem startAttempt_s1Seen (s : State) : (startAttempt s).s1Seen = false := rfl
@[simp] theorem startAttempt_tStart (s : State) : (startAttempt s).tStart = s.tStart := rfl
@[simp] theorem startAttempt_rxKind (s : State) : (startAttempt s).rxKind = s.rxKind := rfl
@[simp] theorem startAttempt_rxPort (s : State) : (startAttempt s).rxPort = s.rxPort := rfl
@[simp] theorem startAttempt_rxLen (s : State) : (startAttempt s).rxLen = s.rxLen := rfl
@[simp] theorem startAttempt_rxp (s : State) : (startAttempt s).rxp = s.rxp := rfl
@[simp] theorem startAttempt_timeout (s : State) : (startAttempt s).timeout = s.timeout := rfl
@[simp] theorem startAttempt_ctl (s : State) : (startAttempt s).ctl = s.ctl := rfl
@[simp] theorem startAttempt_tReq (s : State) : (startAttempt s).tReq = s.tReq := rfl
@[simp] theorem startAttempt_qValue (s : State) : (startAttempt s).qValue = s.qValue := rfl
@[simp] theorem startAttempt_cOk (s : State) : (startAttempt s).cOk = s.cOk := rfl
@[simp] theorem startAttempt_sDevtype (s : State) : (startAttempt s).sDevtype = s.sDevtype := rfl
@[simp] theorem startAttempt_revA (s : State) : (startAttempt s).revA = s.revA := rfl
@[simp] theorem startAttempt_revB (s : State) : (startAttempt s).revB = s.revB := rfl
@[simp] theorem startAttempt_revC (s : State) : (startAttempt s).revC = s.revC := rfl
@[simp] theorem startAttempt_revOk (s : State) : (startAttempt s).revOk = s.revOk := rfl
@[simp] theorem startAttempt_revIdx (s : State) : (startAttempt s).revIdx = s.revIdx := rfl
@[simp] theorem startAttempt_val0 (s : State) : (startAttempt s).val0 = s.val0 := rfl
@[simp] theorem startAttempt_val1 (s : State) : (startAttempt s).val1 = s.val1 := rfl
@[simp] theorem startAttempt_val2 (s : State) : (startAttempt s).val2 = s.val2 := rfl
@[simp] theorem startAttempt_reqOk (s : State) : (startAttempt s).reqOk = s.reqOk := rfl
@[simp] theorem startAttempt_reqPort (s : State) : (startAttempt s).reqPort = s.reqPort := rfl
@[simp] theorem startAttempt_reqRegister (s : State) : (startAttempt s).reqRegister = s.reqRegister := rfl
@[simp] theorem startAttempt_reqParameter (s : State) : (startAttempt s).reqParameter = s.reqParameter := rfl
@[simp] theorem startAttempt_curOp (s : State) : (startAttempt s).curOp = s.curOp := rfl
@[simp] theorem startAttempt_opPort (s : State) : (startAttempt s).opPort = s.opPort := rfl
@[simp] theorem startAttempt_opA (s : State) : (startAttempt s).opA = s.opA := rfl
@[simp] theorem startAttempt_opB (s : State) : (startAttempt s).opB = s.opB := rfl
@[simp] theorem startAttempt_txp (s : State) : (startAttempt s).txp = s.txp := rfl
@[simp] theorem startAttempt_busy (s : State) : (startAttempt s).busy = s.busy := rfl
@[simp] theorem startAttempt_enc (s : State) : (startAttempt s).enc = s.enc := rfl
@[simp] theorem startAttempt_rxq (s : State) : (startAttempt s).rxq = s.rxq := rfl
@[simp] theorem startAttempt_txq (s : State) : (startAttempt s).txq = s.txq := rfl
@[simp] theorem startAttempt_now (s : State) : (startAttempt s).now = s.now := rfl
@[simp] theorem startAttempt_diagLog (s : State) : (startAttempt s).diagLog = s.diagLog := rfl
@[simp] theorem startAttempt_refusedPulses (s : State) : (startAttempt s).refusedPulses = s.refusedPulses := rfl
@[simp] theorem startAttempt_script (s : State) : (startAttempt s).script = s.script := rfl
@[simp] theorem startAttempt_hostq (s : State) : (startAttempt s).hostq = s.hostq := rfl
@[simp] theorem startAttempt_epoch (s : State) : (startAttempt s).epoch = s.epoch := rfl

@[simp] theorem recordStart_cfg (s : State) : (recordStart s).cfg = s.cfg := rfl
@[simp] theorem recordStart_buf (s : State) : (recordStart s).buf = s.buf := rfl
@[simp] theorem recordStart_cursor (s : State) : (recordStart s).cursor = s.cursor := rfl
@[simp] theorem recordStart_cp (s : State) : (recordStart s).cp = .dLoop := rfl
@[simp] theorem recordStart_s1Seen (s : State) : (recordStart s).s1Seen = false := rfl
@[simp] theorem recordStart_tStart (s : State) : (recordStart s).tStart = s.now := rfl
@[simp] theorem recordStart_rxKind (s : State) : (recordStart s).rxKind = s.rxKind := rfl
@[simp] theorem recordStart_rxPort (s : State) : (recordStart s).rxPort = s.rxPort := rfl
@[simp] theorem recordStart_rxLen (s : State) : (recordStart s).rxLen = s.rxLen := rfl
@[simp] theorem recordStart_rxp (s : State) : (recordStart s).rxp = s.rxp := rfl
@[simp] theorem recordStart_timeout (s : State) : (recordStart s).timeout = s.timeout := rfl
@[simp] theorem recordStart_ctl (s : State) : (recordStart s).ctl = s.ctl := rfl
@[simp] theorem recordStart_tReq (s : State) : (recordStart s).tReq = s.tReq := rfl
@[simp] theorem recordStart_qValue (s : State) : (recordStart s).qValue = s.qValue := rfl
@[simp] theorem recordStart_cOk (s : State) : (recordStart s).cOk = s.cOk := rfl
@[simp] theorem recordStart_sDevtype (s : State) : (recordStart s).sDevtype = s.sDevtype := rfl
@[simp] theorem recordStart_revA (s : State) : (recordStart s).revA = s.revA := rfl
@[simp] theorem recordStart_revB (s : State) : (recordStart s).revB = s.revB := rfl
@[simp] theorem recordStart_revC (s : State) : (recordStart s).revC = s.revC := rfl
@[simp] theorem recordStart_revOk (s : State) : (recordStart s).revOk = s.revOk := rfl
@[simp] theorem recordStart_revIdx (s : State) : (recordStart s).revIdx = s.revIdx := rfl
@[simp] theorem recordStart_val0 (s : State) : (recordStart s).val0 = s.val0 := rfl
@[simp] theorem recordStart_val1 (s : State) : (recordStart s).val1 = s.val1 := rfl
@[simp] theorem recordStart_val2 (s : State) : (recordStart s).val2 = s.val2 := rfl
@[simp] theorem recordStart_reqOk (s : State) : (recordStart s).reqOk = s.reqOk := rfl
@[simp] theorem recordStart_reqPort (s : State) : (recordStart s).reqPort = s.reqPort := rfl
@[simp] theorem recordStart_reqRegister (s : State) : (recordStart s).reqRegister = s.reqRegister := rfl
@[simp] theorem recordStart_reqParameter (s : State) : (recordStart s).reqParameter = s.reqParameter := rfl
@[simp] theorem recordStart_curOp (s : State) : (recordStart s).curOp = s.curOp := rfl
@[simp] theorem recordStart_opPort (s : State) : (recordStart s).opPort = s.opPort := rfl
@[simp] theorem recordStart_opA (s : State) : (recordStart s).opA = s.opA := rfl
@[simp] theorem recordStart_opB (s : State) : (recordStart s).opB = s.opB := rfl
@[simp] theorem recordStart_txp (s : State) : (recordStart s).txp = s.txp := rfl
@[simp] theorem recordStart_busy (s : State) : (recordStart s).busy = s.busy := rfl
@[simp] theorem recordStart_enc (s : State) : (recordStart s).enc = s.enc := rfl
@[simp] theorem recordStart_rxq (s : State) : (recordStart s).rxq = s.rxq := rfl
@[simp] theorem recordStart_txq (s : State) : (recordStart s).txq = s.txq := rfl
@[simp] theorem recordStart_now (s : State) : (recordStart s).now = s.now := rfl
@[simp] theorem recordStart_diagLog (s : State) : (recordStart s).diagLog = s.diagLog := rfl
@[simp] theorem recordStart_refusedPulses (s : State) : (recordStart s).refusedPulses = s.refusedPulses := rfl
@[simp] theorem recordStart_script (s : State) : (recordStart s).script = s.script := rfl
@[simp] theorem recordStart_hostq (s : State) : (recordStart s).hostq = s.hostq := rfl
@[simp] theorem recordStart_epoch (s : State) : (recordStart s).epoch = s.epoch := rfl

@[simp] theorem testGap_cfg (s : State) : (testGap s).cfg = s.cfg := rfl
@[simp] theorem testGap_buf (s : State) : (testGap s).buf = s.buf := rfl
@[simp] theorem testGap_cursor (s : State) : (testGap s).cursor = s.cursor := rfl
@[simp] theorem testGap_cp (s : State) : (testGap s).cp = if frameComplete s then .dFinish else .dLoop := rfl
@[simp] theorem testGap_s1Seen (s : State) : (testGap s).s1Seen = s.s1Seen := rfl
@[simp] theorem testGap_tStart (s : State) : (testGap s).tStart = s.tStart := rfl
@[simp] theorem testGap_rxKind (s : State) : (testGap s).rxKind = s.rxKind := rfl
@[simp] theorem testGap_rxPort (s : State) : (testGap s).rxPort = s.rxPort := rfl
@[simp] theorem testGap_rxLen (s : State) : (testGap s).rxLen = s.rxLen := rfl
@[simp] theorem testGap_rxp (s : State) : (testGap s).rxp = s.rxp := rfl
@[simp] theorem testGap_timeout (s : State) : (testGap s).timeout = s.timeout := rfl
@[simp] theorem testGap_ctl (s : State) : (testGap s).ctl = s.ctl := rfl
@[simp] theorem testGap_tReq (s : State) : (testGap s).tReq = s.tReq := rfl
@[simp] theorem testGap_qValue (s : State) : (testGap s).qValue = s.qValue := rfl
@[simp] theorem testGap_cOk (s : State) : (testGap s).cOk = s.cOk := rfl
@[simp] theorem testGap_sDevtype (s : State) : (testGap s).sDevtype = s.sDevtype := rfl
@[simp] theorem testGap_revA (s : State) : (testGap s).revA = s.revA := rfl
@[simp] theorem testGap_revB (s : State) : (testGap s).revB = s.revB := rfl
@[simp] theorem testGap_revC (s : State) : (testGap s).revC = s.revC := rfl
@[simp] theorem testGap_revOk (s : State) : (testGap s).revOk = s.revOk := rfl
@[simp] theorem testGap_revIdx (s : State) : (testGap s).revIdx = s.revIdx := rfl
@[simp] theorem testGap_val0 (s : State) : (testGap s).val0 = s.val0 := rfl
@[simp] theorem testGap_val1 (s : State) : (testGap s).val1 = s.val1 := rfl
@[simp] theorem testGap_val2 (s : State) : (testGap s).val2 = s.val2 := rfl
@[simp] theorem testGap_reqOk (s : State) : (testGap s).reqOk = s.reqOk := rfl
@[simp] theorem testGap_reqPort (s : State) : (testGap s).reqPort = s.reqPort := rfl
@[simp] theorem testGap_reqRegister (s : State) : (testGap s).reqRegister = s.reqRegister := rfl
@[simp] theorem testGap_reqParameter (s : State) : (testGap s).reqParameter = s.reqParameter := rfl
@[simp] theorem testGap_curOp (s : State) : (testGap s).curOp = s.curOp := rfl
@[simp] theorem testGap_opPort (s : State) : (testGap s).opPort = s.opPort := rfl
@[simp] theorem testGap_opA (s : State) : (testGap s).opA = s.opA := rfl
@[simp] theorem testGap_opB (s : State) : (testGap s).opB = s.opB := rfl
@[simp] theorem testGap_txp (s : State) : (testGap s).txp = s.txp := rfl
@[simp] theorem testGap_busy (s : State) : (testGap s).busy = s.busy := rfl
@[simp] theorem testGap_enc (s : State) : (testGap s).enc = s.enc := rfl
@[simp] theorem testGap_rxq (s : State) : (testGap s).rxq = s.rxq := rfl
@[simp] theorem testGap_txq (s : State) : (testGap s).txq = s.txq := rfl
@[simp] theorem testGap_now (s : State) : (testGap s).now = s.now := rfl
@[simp] theorem testGap_diagLog (s : State) : (testGap s).diagLog = s.diagLog := rfl
@[simp] theorem testGap_refusedPulses (s : State) : (testGap s).refusedPulses = s.refusedPulses := rfl
@[simp] theorem testGap_script (s : State) : (testGap s).script = s.script := rfl
@[simp] theorem testGap_hostq (s : State) : (testGap s).hostq = s.hostq := rfl
@[simp] theorem testGap_epoch (s : State) : (testGap s).epoch = s.epoch := rfl

@[simp] theorem enterSent_cfg (s : State) : (enterSent s).cfg = s.cfg := rfl
@[simp] theorem enterSent_buf (s : State) : (enterSent s).buf = s.buf := rfl
@[simp] theorem enterSent_cursor (s : State) : (enterSent s).cursor = 0 := rfl
@[simp] theorem enterSent_cp (s : State) : (enterSent s).cp = .dBegin := rfl
@[simp] theorem enterSent_s1Seen (s : State) : (enterSent s).s1Seen = false := rfl
@[simp] theorem enterSent_tStart (s : State) : (enterSent s).tStart = s.tStart := rfl
@[simp] theorem enterSent_rxKind (s : State) : (enterSent s).rxKind = s.rxKind := rfl
@[simp] theorem enterSent_rxPort (s : State) : (enterSent s).rxPort = s.rxPort := rfl
@[simp] theorem enterSent_rxLen (s : State) : (enterSent s).rxLen = s.rxLen := rfl
@[simp] theorem enterSent_rxp (s : State) : (enterSent s).rxp = s.rxp := rfl
@[simp] theorem enterSent_timeout (s : State) : (enterSent s).timeout = s.timeout := rfl
@[simp] theorem enterSent_ctl (s : State) : (enterSent s).ctl = .sent := rfl
@[simp] theorem enterSent_tReq (s : State) : (enterSent s).tReq = s.now := rfl
@[simp] theorem enterSent_qValue (s : State) : (enterSent s).qValue = s.qValue := rfl
@[simp] theorem enterSent_cOk (s : State) : (enterSent s).cOk = s.cOk := rfl
@[simp] theorem enterSent_sDevtype (s : State) : (enterSent s).sDevtype = s.sDevtype := rfl
@[simp] theorem enterSent_revA (s : State) : (enterSent s).revA = s.revA := rfl
@[simp] theorem enterSent_revB (s : State) : (enterSent s).revB = s.revB := rfl
@[simp] theorem enterSent_revC (s : State) : (enterSent s).revC = s.revC := rfl
@[simp] theorem enterSent_revOk (s : State) : (enterSent s).revOk = s.revOk := rfl
@[simp] theorem enterSent_revIdx (s : State) : (enterSent s).revIdx = s.revIdx := rfl
@[simp] theorem enterSent_val0 (s : State) : (enterSent s).val0 = s.val0 := rfl
@[simp] theorem enterSent_val1 (s : State) : (enterSent s).val1 = s.val1 := rfl
@[simp] theorem enterSent_val2 (s : State) : (enterSent s).val2 = s.val2 := rfl
@[simp] theorem enterSent_reqOk (s : State) : (enterSent s).reqOk = s.reqOk := rfl
@[simp] theorem enterSent_reqPort (s : State) : (enterSent s).reqPort = s.reqPort := rfl
@[simp] theorem enterSent_reqRegister (s : State) : (enterSent s).reqRegister = s.reqRegister := rfl
@[simp] theorem enterSent_reqParameter (s : State) : (enterSent s).reqParameter = s.reqParameter := rfl
@[simp] theorem enterSent_curOp (s : State) : (enterSent s).curOp = s.curOp := rfl
@[simp] theorem enterSent_opPort (s : State) : (enterSent s).opPort = s.opPort := rfl
@[simp] theorem enterSent_opA (s : State) : (enterSent s).opA = s.opA := rfl
@[simp] theorem enterSent_opB (s : State) : (enterSent s).opB = s.opB := rfl
@[simp] theorem enterSent_txp (s : State) : (enterSent s).txp = s.txp := rfl
@[simp] theorem enterSent_busy (s : State) : (enterSent s).busy = s.busy := rfl
@[simp] theorem enterSent_enc (s : State) : (enterSent s).enc = s.enc := rfl
@[simp] theorem enterSent_rxq (s : State) : (enterSent s).rxq = s.rxq := rfl
@[simp] theorem enterSent_txq (s : State) : (enterSent s).txq = s.txq := rfl
@[simp] theorem enterSent_now (s : State) : (enterSent s).now = s.now := rfl
@[simp] theorem enterSent_diagLog (s : State) : (enterSent s).diagLog = s.diagLog := rfl
@[simp] theorem enterSent_refusedPulses (s : State) : (enterSent s).refusedPulses = s.refusedPulses := rfl
@[simp] theorem enterSent_script (s : State) : (enterSent s).script = s.script := rfl
@[simp] theorem enterSent_hostq (s : State) : (enterSent s).hostq = s.hostq := rfl
@[simp] theorem enterSent_epoch (s : State) : (enterSent s).epoch = s.epoch := rfl

@[simp] theorem environmentActs_cfg (s : State) : (environmentActs s).cfg = s.cfg := rfl
@[simp] theorem environmentActs_buf (s : State) : (environmentActs s).buf = s.buf := rfl
@[simp] theorem environmentActs_cursor (s : State) : (environmentActs s).cursor = s.cursor := rfl
@[simp] theorem environmentActs_cp (s : State) : (environmentActs s).cp = s.cp := rfl
@[simp] theorem environmentActs_s1Seen (s : State) : (environmentActs s).s1Seen = s.s1Seen := rfl
@[simp] theorem environmentActs_tStart (s : State) : (environmentActs s).tStart = s.tStart := rfl
@[simp] theorem environmentActs_rxKind (s : State) : (environmentActs s).rxKind = s.rxKind := rfl
@[simp] theorem environmentActs_rxPort (s : State) : (environmentActs s).rxPort = s.rxPort := rfl
@[simp] theorem environmentActs_rxLen (s : State) : (environmentActs s).rxLen = s.rxLen := rfl
@[simp] theorem environmentActs_rxp (s : State) : (environmentActs s).rxp = s.rxp := rfl
@[simp] theorem environmentActs_timeout (s : State) : (environmentActs s).timeout = s.timeout := rfl
@[simp] theorem environmentActs_ctl (s : State) : (environmentActs s).ctl = s.ctl := rfl
@[simp] theorem environmentActs_tReq (s : State) : (environmentActs s).tReq = s.tReq := rfl
@[simp] theorem environmentActs_qValue (s : State) : (environmentActs s).qValue = s.qValue := rfl
@[simp] theorem environmentActs_cOk (s : State) : (environmentActs s).cOk = s.cOk := rfl
@[simp] theorem environmentActs_sDevtype (s : State) : (environmentActs s).sDevtype = s.sDevtype := rfl
@[simp] theorem environmentActs_revA (s : State) : (environmentActs s).revA = s.revA := rfl
@[simp] theorem environmentActs_revB (s : State) : (environmentActs s).revB = s.revB := rfl
@[simp] theorem environmentActs_revC (s : State) : (environmentActs s).revC = s.revC := rfl
@[simp] theorem environmentActs_revOk (s : State) : (environmentActs s).revOk = s.revOk := rfl
@[simp] theorem environmentActs_revIdx (s : State) : (environmentActs s).revIdx = s.revIdx := rfl
@[simp] theorem environmentActs_val0 (s : State) : (environmentActs s).val0 = s.val0 := rfl
@[simp] theorem environmentActs_val1 (s : State) : (environmentActs s).val1 = s.val1 := rfl
@[simp] theorem environmentActs_val2 (s : State) : (environmentActs s).val2 = s.val2 := rfl
@[simp] theorem environmentActs_reqOk (s : State) : (environmentActs s).reqOk = s.reqOk := rfl
@[simp] theorem environmentActs_reqPort (s : State) : (environmentActs s).reqPort = s.reqPort := rfl
@[simp] theorem environmentActs_reqRegister (s : State) : (environmentActs s).reqRegister = s.reqRegister := rfl
@[simp] theorem environmentActs_reqParameter (s : State) : (environmentActs s).reqParameter = s.reqParameter := rfl
@[simp] theorem environmentActs_curOp (s : State) : (environmentActs s).curOp = s.curOp := rfl
@[simp] theorem environmentActs_opPort (s : State) : (environmentActs s).opPort = s.opPort := rfl
@[simp] theorem environmentActs_opA (s : State) : (environmentActs s).opA = s.opA := rfl
@[simp] theorem environmentActs_opB (s : State) : (environmentActs s).opB = s.opB := rfl
@[simp] theorem environmentActs_txp (s : State) : (environmentActs s).txp = s.txp := rfl
@[simp] theorem environmentActs_busy (s : State) : (environmentActs s).busy = s.busy := rfl
@[simp] theorem environmentActs_enc (s : State) : (environmentActs s).enc = s.enc := rfl
@[simp] theorem environmentActs_rxq (s : State) : (environmentActs s).rxq = s.rxq ++ (nextMove s).arrivals := rfl
@[simp] theorem environmentActs_txq (s : State) : (environmentActs s).txq = s.txq := rfl
@[simp] theorem environmentActs_now (s : State) : (environmentActs s).now = BitVec.ofNat 32 ((s.now.toNat + (nextMove s).ticks) % 2 ^ s.cfg.clockW) := rfl
@[simp] theorem environmentActs_diagLog (s : State) : (environmentActs s).diagLog = s.diagLog := rfl
@[simp] theorem environmentActs_refusedPulses (s : State) : (environmentActs s).refusedPulses = s.refusedPulses := rfl
@[simp] theorem environmentActs_script (s : State) : (environmentActs s).script = s.script.tail := rfl
@[simp] theorem environmentActs_hostq (s : State) : (environmentActs s).hostq = s.hostq := rfl
@[simp] theorem environmentActs_epoch (s : State) : (environmentActs s).epoch = s.epoch := rfl

@[simp] theorem resetBlock_cfg (s : State) : (resetBlock s).cfg = s.cfg := rfl
@[simp] theorem resetBlock_buf (s : State) : (resetBlock s).buf = (State.resetOf s.cfg).buf := rfl
@[simp] theorem resetBlock_cursor (s : State) : (resetBlock s).cursor = (State.resetOf s.cfg).cursor := rfl
@[simp] theorem resetBlock_cp (s : State) : (resetBlock s).cp = (State.resetOf s.cfg).cp := rfl
@[simp] theorem resetBlock_s1Seen (s : State) : (resetBlock s).s1Seen = (State.resetOf s.cfg).s1Seen := rfl
@[simp] theorem resetBlock_tStart (s : State) : (resetBlock s).tStart = (State.resetOf s.cfg).tStart := rfl
@[simp] theorem resetBlock_rxKind (s : State) : (resetBlock s).rxKind = (State.resetOf s.cfg).rxKind := rfl
@[simp] theorem resetBlock_rxPort (s : State) : (resetBlock s).rxPort = (State.resetOf s.cfg).rxPort := rfl
@[simp] theorem resetBlock_rxLen (s : State) : (resetBlock s).rxLen = (State.resetOf s.cfg).rxLen := rfl
@[simp] theorem resetBlock_rxp (s : State) : (resetBlock s).rxp = (State.resetOf s.cfg).rxp := rfl
@[simp] theorem resetBlock_timeout (s : State) : (resetBlock s).timeout = (State.resetOf s.cfg).timeout := rfl
@[simp] theorem resetBlock_ctl (s : State) : (resetBlock s).ctl = (State.resetOf s.cfg).ctl := rfl
@[simp] theorem resetBlock_tReq (s : State) : (resetBlock s).tReq = (State.resetOf s.cfg).tReq := rfl
@[simp] theorem resetBlock_qValue (s : State) : (resetBlock s).qValue = (State.resetOf s.cfg).qValue := rfl
@[simp] theorem resetBlock_cOk (s : State) : (resetBlock s).cOk = (State.resetOf s.cfg).cOk := rfl
@[simp] theorem resetBlock_sDevtype (s : State) : (resetBlock s).sDevtype = (State.resetOf s.cfg).sDevtype := rfl
@[simp] theorem resetBlock_revA (s : State) : (resetBlock s).revA = (State.resetOf s.cfg).revA := rfl
@[simp] theorem resetBlock_revB (s : State) : (resetBlock s).revB = (State.resetOf s.cfg).revB := rfl
@[simp] theorem resetBlock_revC (s : State) : (resetBlock s).revC = (State.resetOf s.cfg).revC := rfl
@[simp] theorem resetBlock_revOk (s : State) : (resetBlock s).revOk = (State.resetOf s.cfg).revOk := rfl
@[simp] theorem resetBlock_revIdx (s : State) : (resetBlock s).revIdx = (State.resetOf s.cfg).revIdx := rfl
@[simp] theorem resetBlock_val0 (s : State) : (resetBlock s).val0 = (State.resetOf s.cfg).val0 := rfl
@[simp] theorem resetBlock_val1 (s : State) : (resetBlock s).val1 = (State.resetOf s.cfg).val1 := rfl
@[simp] theorem resetBlock_val2 (s : State) : (resetBlock s).val2 = (State.resetOf s.cfg).val2 := rfl
@[simp] theorem resetBlock_reqOk (s : State) : (resetBlock s).reqOk = (State.resetOf s.cfg).reqOk := rfl
@[simp] theorem resetBlock_reqPort (s : State) : (resetBlock s).reqPort = (State.resetOf s.cfg).reqPort := rfl
@[simp] theorem resetBlock_reqRegister (s : State) : (resetBlock s).reqRegister = (State.resetOf s.cfg).reqRegister := rfl
@[simp] theorem resetBlock_reqParameter (s : State) : (resetBlock s).reqParameter = (State.resetOf s.cfg).reqParameter := rfl
@[simp] theorem resetBlock_curOp (s : State) : (resetBlock s).curOp = (State.resetOf s.cfg).curOp := rfl
@[simp] theorem resetBlock_opPort (s : State) : (resetBlock s).opPort = (State.resetOf s.cfg).opPort := rfl
@[simp] theorem resetBlock_opA (s : State) : (resetBlock s).opA = (State.resetOf s.cfg).opA := rfl
@[simp] theorem resetBlock_opB (s : State) : (resetBlock s).opB = (State.resetOf s.cfg).opB := rfl
@[simp] theorem resetBlock_txp (s : State) : (resetBlock s).txp = (State.resetOf s.cfg).txp := rfl
@[simp] theorem resetBlock_busy (s : State) : (resetBlock s).busy = (State.resetOf s.cfg).busy := rfl
@[simp] theorem resetBlock_enc (s : State) : (resetBlock s).enc = (State.resetOf s.cfg).enc := rfl
@[simp] theorem resetBlock_rxq (s : State) : (resetBlock s).rxq = s.rxq := rfl
@[simp] theorem resetBlock_txq (s : State) : (resetBlock s).txq = s.txq := rfl
@[simp] theorem resetBlock_now (s : State) : (resetBlock s).now = s.now := rfl
@[simp] theorem resetBlock_diagLog (s : State) : (resetBlock s).diagLog = s.diagLog := rfl
@[simp] theorem resetBlock_refusedPulses (s : State) : (resetBlock s).refusedPulses = s.refusedPulses := rfl
@[simp] theorem resetBlock_script (s : State) : (resetBlock s).script = s.script := rfl
@[simp] theorem resetBlock_hostq (s : State) : (resetBlock s).hostq = s.hostq := rfl
@[simp] theorem resetBlock_epoch (s : State) : (resetBlock s).epoch = s.epoch + 1 := rfl

end Sys2Proof.Machine
end

