-- ==== Sys2Proof/Laws/Words.lean ====
section
/-! SUPPORT. The fields of an assembled command word and of an assembled unit, and the fixed bits of the rows of
spec/opcode_table.json in them. -/

namespace Sys2Proof.Machine

@[simp] theorem cmdOp_commandWord (op r : Nibble) (p : Byte) (a b : Half) : cmdOp (commandWord op r p a b) = op := by
  apply BitVec.eq_of_getLsbD_eq
  intro i hi
  simp only [cmdOp, commandWord, BitVec.getLsbD_extractLsb', BitVec.getLsbD_append]
  interval_cases i <;> simp

@[simp] theorem cmdRsvd_commandWord (op r : Nibble) (p : Byte) (a b : Half) :
    cmdRsvd (commandWord op r p a b) = r := by
  apply BitVec.eq_of_getLsbD_eq
  intro i hi
  simp only [cmdRsvd, commandWord, BitVec.getLsbD_extractLsb', BitVec.getLsbD_append]
  interval_cases i <;> simp

@[simp] theorem cmdPort_commandWord (op r : Nibble) (p : Byte) (a b : Half) :
    cmdPort (commandWord op r p a b) = p := by
  apply BitVec.eq_of_getLsbD_eq
  intro i hi
  simp only [cmdPort, commandWord, BitVec.getLsbD_extractLsb', BitVec.getLsbD_append]
  interval_cases i <;> simp

@[simp] theorem cmdA_commandWord (op r : Nibble) (p : Byte) (a b : Half) : cmdA (commandWord op r p a b) = a := by
  apply BitVec.eq_of_getLsbD_eq
  intro i hi
  simp only [cmdA, commandWord, BitVec.getLsbD_extractLsb', BitVec.getLsbD_append]
  interval_cases i <;> simp

@[simp] theorem cmdB_commandWord (op r : Nibble) (p : Byte) (a b : Half) : cmdB (commandWord op r p a b) = b := by
  apply BitVec.eq_of_getLsbD_eq
  intro i hi
  simp only [cmdB, commandWord, BitVec.getLsbD_extractLsb', BitVec.getLsbD_append]
  interval_cases i <;> simp

@[simp] theorem stripUnit_markUnit (b : Byte) : stripUnit (markUnit b) = b := by
  apply BitVec.eq_of_getLsbD_eq
  intro i hi
  simp only [stripUnit, markUnit, BitVec.getLsbD_extractLsb', BitVec.getLsbD_append]
  simp [hi]

@[simp] theorem stripUnit_plainUnit (b : Byte) : stripUnit (plainUnit b) = b := by
  apply BitVec.eq_of_getLsbD_eq
  intro i hi
  simp only [stripUnit, plainUnit, BitVec.getLsbD_extractLsb', BitVec.getLsbD_append]
  simp [hi]

@[simp] theorem isMarked_markUnit (b : Byte) : isMarked (markUnit b) = true := by
  simp only [isMarked, markUnit, BitVec.getLsbD_append]
  simp

@[simp] theorem isMarked_plainUnit (b : Byte) : isMarked (plainUnit b) = false := by
  simp only [isMarked, plainUnit, BitVec.getLsbD_append]
  simp

/-- The top byte of a command word, `op` and `rsvd`, alone (mask 0xFF0000000000). -/
theorem commandWord_topByte (op r : Nibble) (p : Byte) (a b : Half) :
    commandWord op r p a b &&& 0xFF0000000000#48 = op ++ r ++ 0#40 := by
  apply BitVec.eq_of_getLsbD_eq
  intro i hi
  simp only [commandWord, BitVec.getLsbD_and, BitVec.getLsbD_append]
  interval_cases i <;> simp

/-- The top nibble of a command word, `op`, alone (mask 0xF00000000000). -/
theorem commandWord_topNibble (op r : Nibble) (p : Byte) (a b : Half) :
    commandWord op r p a b &&& 0xF00000000000#48 = op ++ 0#44 := by
  apply BitVec.eq_of_getLsbD_eq
  intro i hi
  simp only [commandWord, BitVec.getLsbD_and, BitVec.getLsbD_append]
  interval_cases i <;> simp

/-- Bit `40 + k` of a command word is bit `k` of `rsvd`. -/
theorem commandWord_rsvdBit (op r : Nibble) (p : Byte) (a b : Half) (k : Nat) (h : k < 4) :
    (commandWord op r p a b).getLsbD (40 + k) = r.getLsbD k := by
  simp only [commandWord, BitVec.getLsbD_append]
  interval_cases k <;> simp

/-- A word whose bit `n` is set passes the mask of that one bit. -/
theorem and_twoPow_of_bit (w : CmdWord) (n : Nat) (h : w.getLsbD n = true) :
    w &&& BitVec.twoPow 48 n = BitVec.twoPow 48 n := by
  apply BitVec.eq_of_getLsbD_eq
  intro i hi
  simp only [BitVec.getLsbD_and, BitVec.getLsbD_twoPow]
  by_cases hn : n = i
  · subst hn; simp [h]
  · simp [hn]

end Sys2Proof.Machine
end

