-- ==== Sys2Proof/Laws/Ops.lean ====
section
/-! SUPPORT. One lemma for each shared operation, saying once everything it can do; the meanings and the step are
reasoned about through these. -/

namespace Sys2Proof.Machine

/-! ### Sequencing -/

@[simp] theorem andThen_next (s : State) (f : State → Out) : andThen (.next s) f = f s := rfl
@[simp] theorem andThen_fault (r : Fault) (f : State → Out) : andThen (.fault r) f = .fault r := rfl
@[simp] theorem andThen_refused (r : Refusal) (f : State → Out) : andThen (.refused r) f = .refused r := rfl

/-- A sequence answers a next state through a next state of its first part only. -/
theorem andThen_eq_next {o : Out} {f : State → Out} {t : State} (h : andThen o f = .next t) :
    ∃ u, o = .next u ∧ f u = .next t := by
  cases o with
  | next u => exact ⟨u, rfl, h⟩
  | fault r => cases h
  | refused r => cases h

/-! ### The byte arrays -/

/-- The memory of the reset state, of every instance, has its canonical form. -/
theorem resetOf_memory_wf (c : Params) :
    (State.resetOf c).buf.wf ∧ (State.resetOf c).txp.wf ∧ (State.resetOf c).rxp.wf := by
  simp [State.resetOf, Memory.wf]

theorem reset_memory_wf : State.reset.buf.wf ∧ State.reset.txp.wf ∧ State.reset.rxp.wf :=
  resetOf_memory_wf Config.specExample

/-- A store into BUF succeeds exactly inside the array, and writes the one byte. -/
theorem storeBuf_eq_next {i : Nat} {b : Byte} {s t : State} :
    storeBuf i b s = .next t ↔ i < s.cfg.bufCap ∧ t = { s with buf := s.buf.write i b } := by
  by_cases h : i < s.cfg.bufCap
  · simp [storeBuf, spaceSize, h, eq_comm]
  · simp [storeBuf, spaceSize, h]

theorem storeBuf_wf {i : Nat} {b : Byte} {s t : State} (h : storeBuf i b s = .next t) (hs : s.buf.wf) : t.buf.wf := by
  obtain ⟨-, rfl⟩ := storeBuf_eq_next.mp h
  exact Memory.write_wf _ _ _ hs

theorem storeTxp_wf (i : Nat) (b : Byte) (s : State) (hs : s.txp.wf) : (storeTxp i b s).txp.wf :=
  Memory.write_wf _ _ _ hs

theorem byteAt_storeTxp_same (i : Nat) (b : Byte) (s : State) : byteAt (storeTxp i b s) .txp i = b :=
  byteAt_of_read (Memory.read_write_same _ _ _)

theorem byteAt_storeTxp_other (i j : Nat) (b : Byte) (s : State) (h : j ≠ i) :
    byteAt (storeTxp i b s) .txp j = byteAt s .txp j :=
  byteAt_congr (Memory.read_write_other _ _ h) rfl

/-! ### Command words -/

/-- The five tests of R243 on an assembled word. -/
theorem refuses_commandWord (c : Params) (busy : Bool) (op r : Nibble) (p : Byte) (a b : Half) :
    refuses c busy (commandWord op r p a b) =
      (busy || r != 0 || isReservedOp op || (op == opSend && decide (c.maxPayload < lengthOperand a)) ||
        (op == opLoadp && decide (c.maxPayload ≤ indexOperand a))) := by
  simp [refuses]

/-- A word of an opcode that is neither reserved nor SEND nor LOADP, with `rsvd = 0`, is refused only while busy. -/
theorem refuses_plain (c : Params) (busy : Bool) (op : Nibble) (p : Byte) (a b : Half)
    (h : isReservedOp op = false) (hs : op ≠ opSend) (hl : op ≠ opLoadp) :
    refuses c busy (commandWord op 0 p a b) = busy := by
  rw [refuses_commandWord]
  simp [h, beq_eq_false_iff_ne.mpr hs, beq_eq_false_iff_ne.mpr hl]

theorem refuses_of_busy (c : Params) (w : CmdWord) : refuses c true w = true := by simp [refuses]

/-- The latch after acceptance of an assembled word, and `busy`. -/
theorem accept_commandWord (op r : Nibble) (p : Byte) (a b : Half) (s : State) :
    accept (commandWord op r p a b) s = { s with curOp := op, opPort := p, opA := a, opB := b, busy := true } := by
  simp [accept]

/-- `{op, rsvd, port}` of an assembled word. -/
theorem refusedData_commandWord (op r : Nibble) (p : Byte) (a b : Half) :
    refusedData (commandWord op r p a b) = op ++ r ++ p := by
  simp [refusedData]

/-- The whole effect of a refusal. -/
theorem refuse_eq (w : CmdWord) (s : State) :
    refuse w s = { s with refusedPulses := s.refusedPulses + 1, diagLog := s.diagLog ++ [.refused (refusedData w)] } :=
  rfl

theorem perform_refused {w : CmdWord} {first : State → State} {s : State} (h : refuses s.cfg s.busy w = true) :
    perform w first s = .next (refuse w s) := by
  simp [perform, h]

theorem perform_accepted {w : CmdWord} {first : State → State} {s : State} (h : refuses s.cfg s.busy w = false) :
    perform w first s = runOperation (first (accept w s)) := by
  simp [perform, h]

/-! ### Running an operation -/

theorem runSteps_of_rest {k : Nat} {s : State} (h : atRest s = true) : runSteps k s = .next s := by
  cases k with
  | zero => rfl
  | succ k => simp [runSteps, h]

theorem runSteps_succ {k : Nat} {s : State} (h : atRest s = false) :
    runSteps (k + 1) s = andThen (tick s) (runSteps k) := by
  simp [runSteps, h]

/-- An operation whose first action ends it. -/
theorem runOperation_of_rest {s : State} (h : atRest s = true) : runOperation s = .next s := runSteps_of_rest h

theorem atRest_of_idle {s : State} (h : s.busy = false) : atRest s = true := by simp [atRest, h]

theorem atRest_endOp (s : State) : atRest (endOp s) = true := atRest_of_idle rfl

/-- What every step of a busy block keeps, the run of an operation keeps. -/
theorem runSteps_keeps {P : State → Prop}
    (hstep : ∀ s t, P s → s.busy = true → tick s = .next t → P t) (k : Nat) {s t : State} (hs : P s)
    (h : runSteps k s = .next t) : P t := by
  induction k generalizing s with
  | zero => cases h; exact hs
  | succ k ih =>
    simp only [runSteps] at h
    split at h
    · cases h; exact hs
    · rename_i hr
      obtain ⟨u, hu, hk⟩ := andThen_eq_next h
      refine ih (hstep s u hs ?_ hu) hk
      simp [atRest] at hr
      exact hr.1

/-- A run that has come to rest is the run with any larger bound. -/
theorem runSteps_more {k : Nat} {s t : State} (h : runSteps k s = .next t) (hr : atRest t = true) (j : Nat) :
    runSteps (k + j) s = .next t := by
  induction k generalizing s with
  | zero => cases h; exact runSteps_of_rest hr
  | succ k ih =>
    rw [Nat.add_right_comm]
    simp only [runSteps] at h ⊢
    split
    · rename_i hs
      simpa [hs] using h
    · rename_i hs
      simp only [hs, Bool.false_eq_true, if_false] at h
      obtain ⟨u, hu, hk⟩ := andThen_eq_next h
      rw [hu, andThen_next]
      exact ih hk

/-! ### One action of the block -/

/-- Everything one step of a busy block can do: reset, or one action after the environment's move. -/
theorem tick_cases (s : State) :
    ((nextMove s).rst = true ∧ tick s = .next (resetBlock (environmentActs s))) ∨
    ((nextMove s).rst = false ∧ tick s = act (refusePresented (nextMove s) (environmentActs s))) := by
  unfold tick
  cases h : (nextMove s).rst
  · exact .inr ⟨rfl, by simp⟩
  · exact .inl ⟨rfl, by simp⟩

theorem refusePresented_none {m : EnvMove} (s : State) (h : m.present = none) : refusePresented m s = s := by
  simp [refusePresented, h]

theorem refusePresented_some {m : EnvMove} {w : CmdWord} (s : State) (h : m.present = some w) :
    refusePresented m s = refuse w s := by
  simp [refusePresented, h]

theorem act_sending {s : State} {r : EncRun} (h : s.enc = some r) : act s = .next (encodeTick r s) := by
  simp [act, h]

theorem act_off {s : State} (he : s.enc = none) (h : s.cp = .dOff) : act s = .next (betweenAttempts s) := by
  simp [act, he, h]

theorem act_begin {s : State} (he : s.enc = none) (h : s.cp = .dBegin) :
    act s = .next (if s.s1Seen then recordStart s else testAvailable s) := by
  simp [act, he, h]

theorem act_loop {s : State} (he : s.enc = none) (h : s.cp = .dLoop) : act s = .next (testDeadline s) := by
  simp [act, he, h]

theorem act_read {s : State} (he : s.enc = none) (h : s.cp = .dRead) : act s = readUnit s := by
  simp [act, he, h]

theorem act_eof {s : State} (he : s.enc = none) (h : s.cp = .dEof) : act s = .next (testGap s) := by
  simp [act, he, h]

theorem act_finish {s : State} (he : s.enc = none) (h : s.cp = .dFinish) : act s = finishAttempt s := by
  simp [act, he, h]

/-! ### The decode machine -/

/-- A START is stored as byte 0, after a RESYNC event when bytes were collected. -/
theorem storeStart_eq_next {b : Byte} {s t : State} (h : storeStart b s = .next t) :
    0 < s.cfg.bufCap ∧
      t = { (if s.cursor = 0 then s else emit (.resync s.cursor) s) with
        buf := s.buf.write 0 b, cursor := 1, cp := .dEof } := by
  unfold storeStart at h
  by_cases hz : s.cursor = 0
  · simp only [hz, if_true] at h
    obtain ⟨u, hu, ht⟩ := andThen_eq_next h
    obtain ⟨hb, rfl⟩ := storeBuf_eq_next.mp hu
    cases ht
    exact ⟨hb, by rw [if_pos hz]⟩
  · simp only [hz, if_false] at h
    obtain ⟨u, hu, ht⟩ := andThen_eq_next h
    obtain ⟨hb, rfl⟩ := storeBuf_eq_next.mp hu
    cases ht
    exact ⟨hb, by rw [if_neg hz]; rfl⟩

/-- A DATA overflows a full buffer, else is appended. -/
theorem storeData_eq_next {b : Byte} {s t : State} (h : storeData b s = .next t) :
    (s.cursor.toNat = s.cfg.bufCap ∧ t = endAttempt .overflow (emitFail .overflow 0 { s with cursor := 0 })) ∨
    (s.cursor.toNat < s.cfg.bufCap ∧
      t = { s with buf := s.buf.write s.cursor.toNat b, cursor := s.cursor + 1, cp := .dEof }) := by
  unfold storeData at h
  split at h
  · rename_i hf
    cases h
    exact .inl ⟨by simpa [bufferFull] using hf, rfl⟩
  · obtain ⟨u, hu, ht⟩ := andThen_eq_next h
    obtain ⟨hb, rfl⟩ := storeBuf_eq_next.mp hu
    cases ht
    exact .inr ⟨hb, rfl⟩

/-- S4 takes the head of `rxq`, or goes back to step 2a. -/
theorem readUnit_cons {s : State} {u : LineUnit} {rest : List LineUnit} (h : s.rxq = u :: rest) :
    readUnit s = storeUnit u { s with rxq := rest } := by
  simp [readUnit, h]

theorem readUnit_nil {s : State} (h : s.rxq = []) : readUnit s = .next { s with cp := .dLoop } := by
  simp [readUnit, h]

/-- The latch of a payload that fits. -/
theorem latchFrame_of_fits {p : Byte} {d : List Byte} {s : State} (h : d.length ≤ s.cfg.maxPayload) :
    latchFrame p d s =
      .next { s with rxPort := p, rxLen := BitVec.ofNat 8 d.length, rxp := s.rxp.writeList 0 d } := by
  simp [latchFrame, spaceSize, h]

/-- Everything steps 5 and 6 can do with a frame: latch and end OK, or end CHECKSUM_MISMATCH. -/
theorem finishFrame_eq_next {p : Byte} {d : List Byte} {ck : Half} {s t : State} (h : finishFrame p d ck s = .next t) :
    (ck = checksum p d ∧ d.length ≤ s.cfg.maxPayload ∧
      t = endAttempt .ok { emit (.frameRx (p :: (d ++ be16Pack ck)) ck (checksum p d)) { s with cursor := 0 } with
        rxPort := p, rxLen := BitVec.ofNat 8 d.length, rxp := s.rxp.writeList 0 d }) ∨
    (ck ≠ checksum p d ∧
      t = endAttempt .checksumMismatch (emitFail .checksumMismatch (checksum p d)
        (emit (.frameRx (p :: (d ++ be16Pack ck)) ck (checksum p d)) { s with cursor := 0 }))) := by
  unfold finishFrame at h
  dsimp only at h
  split at h
  · rename_i hc
    obtain ⟨u, hu, ht⟩ := andThen_eq_next h
    by_cases hd : d.length ≤ s.cfg.maxPayload
    · rw [latchFrame_of_fits (by simpa using hd)] at hu
      cases hu
      cases ht
      exact .inl ⟨hc, hd, rfl⟩
    · simp [latchFrame, spaceSize, hd] at hu
  · rename_i hc
    cases h
    exact .inr ⟨hc, rfl⟩

/-! ### The outcome of an attempt -/

theorem deliver_receive (k : Kind) {s : State} (h : s.curOp = opReceive) : deliver k s = endOp s := by
  simp [deliver, h, isRequestOp, opReceive, opQuery, opControl, opScan, opGetRevision, opRecvReq]

theorem deliver_recvReq (k : Kind) {s : State} (h : s.curOp = opRecvReq) : deliver k s = recvReqResult k s := by
  simp [deliver, h, isRequestOp, opQuery, opControl, opScan, opGetRevision, opRecvReq]

theorem deliver_request (k : Kind) {s : State} (h : isRequestOp s.curOp = true) :
    deliver k s = requestOutcome k s := by
  simp [deliver, h]

/-- The resolution of a request goes to the command in progress, `ctl_state` back to IDLE. -/
theorem concludeRequest_eq (r : Resolution) (s : State) :
    concludeRequest r s = commandResult r { s with ctl := .idle } := rfl

/-! ### The encoder -/

theorem encodeTick_port {r : EncRun} (s : State) (h : r.stage = .portUnit) :
    encodeTick r s = writeUnit (markUnit r.port)
      { s with enc := some { r with stage := stageFor r.payload, acc := r.port.setWidth 16 } } := by
  simp [encodeTick, h]

theorem encodeTick_payload {r : EncRun} {b : Byte} {rest : List Byte} (s : State) (h : r.stage = .payloadUnit b rest) :
    encodeTick r s = writeUnit (plainUnit b)
      { s with enc := some { r with stage := stageFor rest, acc := checksumAdd r.acc b } } := by
  simp [encodeTick, h]

theorem encodeTick_high {r : EncRun} (s : State) (h : r.stage = .checksumHigh) :
    encodeTick r s = writeUnit (plainUnit (highByte r.acc)) { s with enc := some { r with stage := .checksumLow } } := by
  simp [encodeTick, h]

theorem encodeTick_low {r : EncRun} (s : State) (h : r.stage = .checksumLow) :
    encodeTick r s = frameSent (emit (.frameTx r.port r.payload r.acc)
      (writeUnit (plainUnit (lowByte r.acc)) { s with enc := none })) := by
  simp [encodeTick, h]

theorem frameSent_request {s : State} (h : isRequestOp s.curOp = true) : frameSent s = s := by simp [frameSent, h]

theorem frameSent_other {s : State} (h : isRequestOp s.curOp = false) : frameSent s = endOp s := by
  simp [frameSent, h]

end Sys2Proof.Machine
end

