-- ==== Sys2Proof/Laws/PerInstr.lean ====
section
/-! SUPPORT. The family EncodesItsRow: the encoding of a well-formed instruction carries the fixed bits that the
instruction's own row of spec/opcode_table.json gives (30_encoding.md R111). -/

namespace Sys2Proof.Laws

open Sys2Proof Sys2Proof.Machine

/-- A command word with the `match` bits of its row under the row's `mask`. -/
def CommandRow (mask bits : CmdWord) (c : Code) : Prop := ∃ w, c = .command w ∧ w &&& mask = bits

/-- The units of a frame row: the first marked, the others not, as many as the row has. -/
def FrameRow (length : Nat) (c : Code) : Prop :=
  ∃ u us, c = .frame (u :: us) ∧ isMarked u = true ∧ us.any isMarked = false ∧ us.length + 1 = length

theorem frameRow_frameUnits (p : Byte) (d : List Byte) (ck : Half) :
    FrameRow (d.length + 3) (.frame (frameUnits p d ck)) := by
  refine ⟨_, _, rfl, isMarked_markUnit p, ?_, by simp⟩
  simp [Function.comp_def]

theorem commandRow_topByte (op r : Nibble) (p : Byte) (a b : Half) (bits : CmdWord) (h : op ++ r ++ 0#40 = bits) :
    CommandRow 0xFF0000000000 bits (.command (commandWord op r p a b)) :=
  ⟨_, rfl, (commandWord_topByte op r p a b).trans h⟩

theorem commandRow_topNibble (op r : Nibble) (p : Byte) (a b : Half) (bits : CmdWord) (h : op ++ 0#44 = bits) :
    CommandRow 0xF00000000000 bits (.command (commandWord op r p a b)) :=
  ⟨_, rfl, (commandWord_topNibble op r p a b).trans h⟩

theorem commandRow_rsvdBit (op r : Nibble) (p : Byte) (a b : Half) (k : Nat) (hk : k < 4) (bits : CmdWord)
    (hb : BitVec.twoPow 48 (40 + k) = bits) (h : lowestRsvdBit r k = true) :
    CommandRow bits bits (.command (commandWord op r p a b)) := by
  subst hb
  refine ⟨_, rfl, and_twoPow_of_bit _ _ ?_⟩
  rw [commandWord_rsvdBit op r p a b k hk]
  exact (Bool.and_eq_true_iff.mp h).1

/-- What the row of an instruction fixes in its encoding. -/
def RowOf : Instr → Code → Prop
  | .start _, c => ∃ u : LineUnit, c = .unit u ∧ u.getLsbD 8 = true
  | .data _, c => ∃ u : LineUnit, c = .unit u ∧ u.getLsbD 8 = false
  | .frame _ d _, c => FrameRow (d.length + 3) c
  | .reqFrame _ _ _ _, c => FrameRow 7 c
  | .rspFrame _ _ _, c => FrameRow 5 c
  | .setTimeout _ _ _, c => CommandRow 0xFF0000000000 0x100000000000 c
  | .query _ _ _, c => CommandRow 0xFF0000000000 0x200000000000 c
  | .control _ _ _, c => CommandRow 0xFF0000000000 0x300000000000 c
  | .scan _ _ _, c => CommandRow 0xFF0000000000 0x400000000000 c
  | .getRevision _ _ _, c => CommandRow 0xFF0000000000 0x500000000000 c
  | .recvReq _ _ _, c => CommandRow 0xFF0000000000 0x600000000000 c
  | .sendRsp _ _ _, c => CommandRow 0xFF0000000000 0x700000000000 c
  | .send _ _ _, c => CommandRow 0xFF0000000000 0x800000000000 c
  | .receive _ _ _, c => CommandRow 0xFF0000000000 0x900000000000 c
  | .loadp _ _ _, c => CommandRow 0xFF0000000000 0xA00000000000 c
  | .reservedOp0 _ _ _, c => CommandRow 0xF00000000000 0x000000000000 c
  | .reservedOpB _ _ _, c => CommandRow 0xF00000000000 0xB00000000000 c
  | .reservedOpC _ _ _, c => CommandRow 0xF00000000000 0xC00000000000 c
  | .reservedOpD _ _ _, c => CommandRow 0xF00000000000 0xD00000000000 c
  | .reservedOpE _ _ _, c => CommandRow 0xF00000000000 0xE00000000000 c
  | .reservedOpF _ _ _, c => CommandRow 0xF00000000000 0xF00000000000 c
  | .reservedRsvdBit0 _ _ _ _ _, c => CommandRow 0x010000000000 0x010000000000 c
  | .reservedRsvdBit1 _ _ _ _ _, c => CommandRow 0x020000000000 0x020000000000 c
  | .reservedRsvdBit2 _ _ _ _ _, c => CommandRow 0x040000000000 0x040000000000 c
  | .reservedRsvdBit3 _ _ _ _ _, c => CommandRow 0x080000000000 0x080000000000 c

/-- The encoding of `i` has the fixed bits of the row of `i`. -/
def EncodesItsRow.Statement (i : Instr) : Prop := ∀ c : Params, i.wellFormed c = true → RowOf i (encode i)

theorem EncodesItsRow.start (b : Byte) : EncodesItsRow.Statement (.start b) :=
  fun _ _ => ⟨_, rfl, isMarked_markUnit b⟩

theorem EncodesItsRow.data (b : Byte) : EncodesItsRow.Statement (.data b) :=
  fun _ _ => ⟨_, rfl, isMarked_plainUnit b⟩

theorem EncodesItsRow.frame (p : Byte) (d : List Byte) (ck : Half) : EncodesItsRow.Statement (.frame p d ck) :=
  fun _ _ => frameRow_frameUnits p d ck

theorem EncodesItsRow.reqFrame (p : Byte) (r a ck : Half) : EncodesItsRow.Statement (.reqFrame p r a ck) :=
  fun _ _ => frameRow_frameUnits p (requestPayload r a) ck

theorem EncodesItsRow.rspFrame (p : Byte) (v ck : Half) : EncodesItsRow.Statement (.rspFrame p v ck) :=
  fun _ _ => frameRow_frameUnits p (be16Pack v) ck

theorem EncodesItsRow.setTimeout (p : Byte) (a b : Half) : EncodesItsRow.Statement (.setTimeout p a b) :=
  fun _ _ => commandRow_topByte _ 0 p a b _ (by decide)

theorem EncodesItsRow.query (p : Byte) (a b : Half) : EncodesItsRow.Statement (.query p a b) :=
  fun _ _ => commandRow_topByte _ 0 p a b _ (by decide)

theorem EncodesItsRow.control (p : Byte) (a b : Half) : EncodesItsRow.Statement (.control p a b) :=
  fun _ _ => commandRow_topByte _ 0 p a b _ (by decide)

theorem EncodesItsRow.scan (p : Byte) (a b : Half) : EncodesItsRow.Statement (.scan p a b) :=
  fun _ _ => commandRow_topByte _ 0 p a b _ (by decide)

theorem EncodesItsRow.getRevision (p : Byte) (a b : Half) : EncodesItsRow.Statement (.getRevision p a b) :=
  fun _ _ => commandRow_topByte _ 0 p a b _ (by decide)

theorem EncodesItsRow.recvReq (p : Byte) (a b : Half) : EncodesItsRow.Statement (.recvReq p a b) :=
  fun _ _ => commandRow_topByte _ 0 p a b _ (by decide)

theorem EncodesItsRow.sendRsp (p : Byte) (a b : Half) : EncodesItsRow.Statement (.sendRsp p a b) :=
  fun _ _ => commandRow_topByte _ 0 p a b _ (by decide)

theorem EncodesItsRow.send (p : Byte) (a b : Half) : EncodesItsRow.Statement (.send p a b) :=
  fun _ _ => commandRow_topByte _ 0 p a b _ (by decide)

theorem EncodesItsRow.receive (p : Byte) (a b : Half) : EncodesItsRow.Statement (.receive p a b) :=
  fun _ _ => commandRow_topByte _ 0 p a b _ (by decide)

theorem EncodesItsRow.loadp (p : Byte) (a b : Half) : EncodesItsRow.Statement (.loadp p a b) :=
  fun _ _ => commandRow_topByte _ 0 p a b _ (by decide)

theorem EncodesItsRow.reservedOp0 (p : Byte) (a b : Half) : EncodesItsRow.Statement (.reservedOp0 p a b) :=
  fun _ _ => commandRow_topNibble _ 0 p a b _ (by decide)

theorem EncodesItsRow.reservedOpB (p : Byte) (a b : Half) : EncodesItsRow.Statement (.reservedOpB p a b) :=
  fun _ _ => commandRow_topNibble _ 0 p a b _ (by decide)

theorem EncodesItsRow.reservedOpC (p : Byte) (a b : Half) : EncodesItsRow.Statement (.reservedOpC p a b) :=
  fun _ _ => commandRow_topNibble _ 0 p a b _ (by decide)

theorem EncodesItsRow.reservedOpD (p : Byte) (a b : Half) : EncodesItsRow.Statement (.reservedOpD p a b) :=
  fun _ _ => commandRow_topNibble _ 0 p a b _ (by decide)

theorem EncodesItsRow.reservedOpE (p : Byte) (a b : Half) : EncodesItsRow.Statement (.reservedOpE p a b) :=
  fun _ _ => commandRow_topNibble _ 0 p a b _ (by decide)

theorem EncodesItsRow.reservedOpF (p : Byte) (a b : Half) : EncodesItsRow.Statement (.reservedOpF p a b) :=
  fun _ _ => commandRow_topNibble _ 0 p a b _ (by decide)

theorem EncodesItsRow.reservedRsvdBit0 (op r : Nibble) (p : Byte) (a b : Half) :
    EncodesItsRow.Statement (.reservedRsvdBit0 op r p a b) :=
  fun _ h => commandRow_rsvdBit op r p a b 0 (by decide) _ (by decide) h

theorem EncodesItsRow.reservedRsvdBit1 (op r : Nibble) (p : Byte) (a b : Half) :
    EncodesItsRow.Statement (.reservedRsvdBit1 op r p a b) :=
  fun _ h => commandRow_rsvdBit op r p a b 1 (by decide) _ (by decide) h

theorem EncodesItsRow.reservedRsvdBit2 (op r : Nibble) (p : Byte) (a b : Half) :
    EncodesItsRow.Statement (.reservedRsvdBit2 op r p a b) :=
  fun _ h => commandRow_rsvdBit op r p a b 2 (by decide) _ (by decide) h

theorem EncodesItsRow.reservedRsvdBit3 (op r : Nibble) (p : Byte) (a b : Half) :
    EncodesItsRow.Statement (.reservedRsvdBit3 op r p a b) :=
  fun _ h => commandRow_rsvdBit op r p a b 3 (by decide) _ (by decide) h

end Sys2Proof.Laws
end

