-- ==== Sys2Proof/Tests/Slice0.lean ====
section
/-! SUPPORT. Tests: ill-formed terms are refused, written-out words decode, one step of each instruction on the vectors
of spec 95_test_vectors.md, and a witness for the hypotheses of each statement. -/

namespace Sys2Proof.Tests

open Sys2Proof Sys2Proof.Machine Sys2Proof.Safety

/-- A field of the next state. -/
def look {α : Type} (f : State → α) (o : Out) : Option α :=
  match o with
  | .next t => some (f t)
  | .fault _ => none
  | .refused _ => none

/-- The reset block with units waiting. -/
def waiting (us : List LineUnit) : State := { State.reset with rxq := us }

/-- The reset block, whose environment brings `us` after S0. -/
def answeredBy (us : List LineUnit) : State := { State.reset with script := answerScript us 0 }

/-- A block running operation `op` with two bytes collected. -/
def collecting (op : Nibble) : State :=
  { State.reset with busy := true, curOp := op, cursor := 2, buf := [(0, 0x01), (1, 0x04)], cp := .dRead }

/-- A block running operation `op` whose buffer of 3 bytes is full. -/
def full (op : Nibble) : State :=
  { State.reset with
    cfg := { Config.specExample with bufCap := 3 }, busy := true, curOp := op, cursor := 3
    buf := [(0, 0x01), (1, 0x01), (2, 0x02)], cp := .dRead }

/-- T-ENC-2, the request of QUERY 0x0008, 0, 1. -/
def requestUnits : List LineUnit := [0x101, 0x000, 0x008, 0x000, 0x000, 0x000, 0x009]

/-- T-ENC-3, the response 1234. -/
def responseUnits : List LineUnit := [0x101, 0x004, 0x0D2, 0x000, 0x0D7]

/-! ### WellFormed refuses an ill-formed term for each check -/

theorem test_frame_too_long : (Instr.frame 0 (List.replicate 9 0) 0).wellFormed Config.specExample = false := by decide

theorem test_frame_bad_checksum : (Instr.frame 0x05 [] 0x0006).wellFormed Config.specExample = false := by decide

theorem test_frame_of_response_length :
    (Instr.frame 0x01 [0x04, 0xD2] 0x00D7).wellFormed Config.specExample = false := by decide

theorem test_reqFrame_bad_checksum :
    (Instr.reqFrame 0x01 0x0008 0x0000 0x0008).wellFormed Config.specExample = false := by decide

theorem test_reqFrame_too_long :
    (Instr.reqFrame 0x01 0x0008 0x0000 0x0009).wellFormed { Config.specExample with maxPayload := 3 } = false := by
  decide

theorem test_rspFrame_bad_checksum :
    (Instr.rspFrame 0x01 0x04D2 0x00D6).wellFormed Config.specExample = false := by decide

theorem test_rspFrame_too_long :
    (Instr.rspFrame 0x01 0x04D2 0x00D7).wellFormed { Config.specExample with maxPayload := 1 } = false := by decide

theorem test_rsvd0_needs_its_bit :
    (Instr.reservedRsvdBit0 0x2 0x2 0 0 0).wellFormed Config.specExample = false := by decide

theorem test_rsvd1_needs_its_bit_lowest :
    (Instr.reservedRsvdBit1 0x2 0x3 0 0 0).wellFormed Config.specExample = false := by decide

theorem test_rsvd2_needs_its_bit_lowest :
    (Instr.reservedRsvdBit2 0x2 0x6 0 0 0).wellFormed Config.specExample = false := by decide

theorem test_rsvd3_needs_its_bit_lowest :
    (Instr.reservedRsvdBit3 0x2 0xC 0 0 0).wellFormed Config.specExample = false := by decide

/-! ### Decoding of words written out from 30_encoding.md and 95_test_vectors.md -/

theorem test_decode_start : decode (.unit 0b110101010) = .ok (.start 0xAA) := by decide
theorem test_decode_data : decode (.unit 0b011010010) = .ok (.data 0xD2) := by decide
theorem test_decode_frame : decode (.frame [0x105, 0x000, 0x005]) = .ok (.frame 0x05 [] 0x0005) := by decide
theorem test_decode_frame_payload :
    decode (.frame [0x103, 0x001, 0x000, 0x004]) = .ok (.frame 0x03 [0x01] 0x0004) := by decide
theorem test_decode_reqFrame : decode (.frame requestUnits) = .ok (.reqFrame 0x01 0x0008 0x0000 0x0009) := by decide
theorem test_decode_rspFrame : decode (.frame responseUnits) = .ok (.rspFrame 0x01 0x04D2 0x00D7) := by decide
theorem test_decode_setTimeout : decodeCommand 0x100012345678 = .setTimeout 0x00 0x1234 0x5678 := by decide
theorem test_decode_query : decodeCommand 0x200100080000 = .query 0x01 0x0008 0x0000 := by decide
theorem test_decode_control : decodeCommand 0x3002003C0001 = .control 0x02 0x003C 0x0001 := by decide
theorem test_decode_scan : decodeCommand 0x400200000000 = .scan 0x02 0x0000 0x0000 := by decide
theorem test_decode_getRevision : decodeCommand 0x500400000000 = .getRevision 0x04 0x0000 0x0000 := by decide
theorem test_decode_recvReq : decodeCommand 0x600000000000 = .recvReq 0x00 0x0000 0x0000 := by decide
theorem test_decode_sendRsp : decodeCommand 0x7001000004D2 = .sendRsp 0x01 0x0000 0x04D2 := by decide
theorem test_decode_send : decodeCommand 0x800200020000 = .send 0x02 0x0002 0x0000 := by decide
theorem test_decode_receive : decodeCommand 0x900000000000 = .receive 0x00 0x0000 0x0000 := by decide
theorem test_decode_loadp : decodeCommand 0xA000000100BB = .loadp 0x00 0x0001 0x00BB := by decide
theorem test_decode_reservedOp0 : decodeCommand 0x000000000000 = .reservedOp0 0 0 0 := by decide
theorem test_decode_reservedOpB : decodeCommand 0xB00000000000 = .reservedOpB 0 0 0 := by decide
theorem test_decode_reservedOpC : decodeCommand 0xC00102030405 = .reservedOpC 0x01 0x0203 0x0405 := by decide
theorem test_decode_reservedOpD : decodeCommand 0xD00000000000 = .reservedOpD 0 0 0 := by decide
theorem test_decode_reservedOpE : decodeCommand 0xE00000000000 = .reservedOpE 0 0 0 := by decide
theorem test_decode_reservedOpF : decodeCommand 0xF00000000000 = .reservedOpF 0 0 0 := by decide
theorem test_decode_rsvd0 : decodeCommand 0x210100080000 = .reservedRsvdBit0 0x2 0x1 0x01 0x0008 0 := by decide
theorem test_decode_rsvd1 : decodeCommand 0x220100080000 = .reservedRsvdBit1 0x2 0x2 0x01 0x0008 0 := by decide
theorem test_decode_rsvd2 : decodeCommand 0x040000000000 = .reservedRsvdBit2 0x0 0x4 0 0 0 := by decide
theorem test_decode_rsvd3 : decodeCommand 0xF80000000000 = .reservedRsvdBit3 0xF 0x8 0 0 0 := by decide

/-- The frames that R95 and R96 refuse. -/
theorem test_decode_refuses :
    decode (.frame [0x005, 0x000, 0x005]) = .error .noStartMarker ∧
      decode (.frame [0x105, 0x100, 0x005]) = .error .markerInside ∧
      decode (.frame [0x105, 0x000]) = .error .tooShort := by decide

/-- The table's numbers: a unit in 16 bits, L = 0 skeleton in 32, RSP_FRAME in 45, REQ_FRAME in 64. -/
theorem test_table_words :
    decodeTableWord 16 0x1AA = some (.start 0xAA) ∧
      decodeTableWord 32 0x4140005 = some (.frame 0x05 [] 0x0005) ∧
      decodeTableWord 45 0x100000000000 = some (.rspFrame 0x00 0x0000 0x0000) ∧
      decodeTableWord 64 0x4000000000000000 = some (.reqFrame 0x00 0x0000 0x0000 0x0000) ∧
      decodeTableWord 16 0x200 = none ∧ decodeTableWord 7 0 = none := by decide

/-- A written-out table word is what the next step runs. -/
theorem test_withFetchWord :
    look (fun t => t.buf) (step (State.reset.withFetchWord 16 0x1AA)) = some [(0, 0xAA)] ∧
      look (fun t => t.timeout) (step (State.reset.withFetchWord 48 0x100000000064)) = some 0x64 ∧
      look (fun t => t.rxKind) (step (State.reset.withFetchWord 32 0x4140005)) = some .ok ∧
      look (fun t => t.qValue) (step (State.reset.withFetchWord 45 0x100000000000)) = some 0 ∧
      look (fun t => t.reqOk) (step (State.reset.withFetchWord 64 0x4000000000000000)) = some true := by decide

/-! ### One step of each instruction -/

/-- R148. -/
theorem test_start_in_idle :
    look (fun t => (t.buf, t.cursor, t.cp)) (exec (.start 0x01) State.reset) = some ([(0, 0x01)], 1, .dEof) := by decide

/-- R149: RESYNC with the number of bytes discarded. -/
theorem test_start_resynchronizes :
    look (fun t => (byteAt t .buf 0, t.cursor, t.diagLog)) (exec (.start 0x07) (collecting opReceive))
      = some (0x07, 1, [.resync 2]) := by decide

/-- R150. -/
theorem test_data_appends :
    look (fun t => (t.buf, t.cursor)) (exec (.data 0xD2) (collecting opReceive))
      = some ([(0, 0x01), (1, 0x04), (2, 0xD2)], 3) := by decide

/-- R150, T-DEC-15: nothing is written at `cursor = BUF_CAP`. -/
theorem test_data_overflows :
    look (fun t => (t.buf, t.rxKind, t.busy)) (exec (.data 0x05) (full opReceive))
      = some ([(0, 0x01), (1, 0x01), (2, 0x02)], .overflow, false) := by decide

/-- T-DEC-3. -/
theorem test_frame_empty :
    look (fun t => (t.rxKind, t.rxPort, t.rxLen)) (exec (.frame 0x05 [] 0x0005) (collecting opReceive))
      = some (.ok, 0x05, 0) := by decide

/-- T-DEC-14: wire 0x00D7, actual 0x00D2. -/
theorem test_frame_mismatch :
    look (fun t => (t.rxKind, t.diagLog.getLast?)) (exec (.frame 0xD2 [] 0x00D7) (collecting opReceive))
      = some (.checksumMismatch, some (.fail .checksumMismatch 0x00D2)) := by decide

/-- T-DEV-4. -/
theorem test_reqFrame :
    look (fun t => (t.reqOk, t.reqPort, t.reqRegister, t.reqParameter))
      (exec (.reqFrame 0x02 0x003C 0x0001 0x003F) (collecting opRecvReq)) = some (true, 0x02, 0x003C, 0x0001) := by
  decide

/-- T-DEV-3: a response is no request. -/
theorem test_rspFrame_for_recvReq :
    look (fun t => (t.reqOk, t.rxKind, t.rxLen)) (exec (.rspFrame 0x01 0x04D2 0x00D7) (collecting opRecvReq))
      = some (false, .ok, 2) := by decide

/-- T-CMD-2. -/
theorem test_setTimeout :
    look (fun t => (t.timeout, t.busy)) (exec (.setTimeout 0 0x1234 0x5678) State.reset)
      = some (0x12345678, false) := by decide

/-- R17: CLOCK_W = 8 keeps the low 8 bits. -/
theorem test_setTimeout_truncates :
    look (fun t => t.timeout)
      (exec (.setTimeout 0 0x1234 0x5678) (State.resetOf { Config.specExample with clockW := 8 })) = some 0x78 := by
  decide

/-- T-CTL-1. -/
theorem test_query :
    look (fun t => (t.qValue, t.txq)) (exec (.query 0x01 0x0008 0x0000) (answeredBy responseUnits))
      = some (0x04D2, requestUnits) := by decide

/-- T-CTL-6. -/
theorem test_query_badLength :
    look (fun t => (t.qValue, t.rxKind, t.rxLen, t.diagLog.getLast?))
      (exec (.query 0x01 0x0008 0x0000) (answeredBy [0x101, 0x001, 0x002, 0x003, 0x000, 0x007]))
      = some (0xFFFF, .ok, 3, some (.fail .badLength 3)) := by decide

/-- T-CTL-10. -/
theorem test_control :
    look (fun t => (t.cOk, t.txq))
      (exec (.control 0x02 0x003C 0x0001) (answeredBy [0x102, 0x000, 0x000, 0x000, 0x002]))
      = some (true, [0x102, 0x000, 0x03C, 0x000, 0x001, 0x000, 0x03F]) := by decide

/-- T-CTL-11: the echo of the request. -/
theorem test_control_echo :
    look (fun t => (t.cOk, t.rxLen))
      (exec (.control 0x02 0x003C 0x0001) (answeredBy [0x102, 0x000, 0x03C, 0x000, 0x001, 0x000, 0x03F]))
      = some (false, 4) := by decide

/-- P4, step 1. -/
theorem test_scan :
    look (fun t => (t.sDevtype, t.txq)) (exec (.scan 0x02 0 0) (answeredBy [0x102, 0x000, 0x003, 0x000, 0x005]))
      = some (3, [0x102, 0x000, 0x000, 0x000, 0x000, 0x000, 0x002]) := by decide

/-- P4, step 2. -/
theorem test_scan_unresolved :
    look (fun t => (t.sDevtype, t.diagLog.getLast?))
      (exec (.scan 0x02 0 0) (answeredBy [0x102, 0x000, 0x009, 0x000, 0x00B]))
      = some (0, some (.fail .unresolvedDeviceType 0x0009)) := by decide

/-- The environment of P5a. -/
def revisionScript : List EnvMove :=
  answerScript [0x104, 0x000, 0x004, 0x000, 0x008] 17 ++ answerScript [0x104, 0x000, 0x004, 0x000, 0x008] 17 ++
    answerScript [0x104, 0x000, 0x002, 0x000, 0x006] 0

/-- P5a. -/
theorem test_getRevision :
    look (fun t => (t.revA, t.revB, t.revC, t.revOk, t.txq.length))
      (exec (.getRevision 0x04 0 0) { State.reset with script := revisionScript })
      = some (0x0004, 0x0004, 0x0002, true, 21) := by decide

/-- P5b: 60 ms before each S6 of the second request. -/
theorem test_getRevision_partial :
    look (fun t => (t.revA, t.revB, t.revC, t.revOk, t.txq.length))
      (exec (.getRevision 0x04 0 0) { State.reset with
        revA := 1, revB := 1, revC := 1, revOk := true
        script := answerScript [0x104, 0x000, 0x004, 0x000, 0x008] 17 ++ List.replicate 9 EnvMove.quiet ++
          [{ EnvMove.quiet with ticks := 60 }, EnvMove.quiet, { EnvMove.quiet with ticks := 60 }] })
      = some (0xFFFF, 0xFFFF, 0xFFFF, false, 14) := by decide

/-- T-DEV-1. -/
theorem test_recvReq :
    look (fun t => (t.reqOk, t.reqPort, t.reqRegister, t.reqParameter)) (exec (.recvReq 0 0 0) (waiting requestUnits))
      = some (true, 0x01, 0x0008, 0x0000) := by decide

/-- T-DEV-2. -/
theorem test_recvReq_noData :
    look (fun t => (t.reqOk, t.rxKind)) (exec (.recvReq 0 0 0) { State.reset with reqOk := true })
      = some (false, .noData) := by decide

/-- T-DEV-5. -/
theorem test_sendRsp : look (fun t => t.txq) (exec (.sendRsp 0x01 0 0x04D2) State.reset) = some responseUnits := by
  decide

/-- P6, step 3. -/
theorem test_send :
    look (fun t => t.txq) (exec (.send 0x02 0x0002 0) { State.reset with txp := [(0, 0xAA), (1, 0xBB)] })
      = some [0x102, 0x0AA, 0x0BB, 0x001, 0x067] := by decide

/-- T-REF-4. -/
theorem test_send_refused :
    look (fun t => (t.txq, t.diagLog, t.refusedPulses)) (exec (.send 0x01 0x0009 0) State.reset)
      = some ([], [.refused 0x8001], 1) := by decide

/-- T-DEC-7. -/
theorem test_receive_resync :
    look (fun t => (t.rxKind, t.rxPort, bytesAt t .rxp 0 2, t.diagLog.head?))
      (exec (.receive 0 0 0) (waiting [0x107, 0x011, 0x022, 0x102, 0x010, 0x020, 0x000, 0x032]))
      = some (.ok, 0x02, [0x10, 0x20], some (.resync 3)) := by decide

/-- T-DEC-11. -/
theorem test_receive_stops_at_maxLen :
    look (fun t => (t.rxKind, t.rxq, t.diagLog.getLast?)) (exec (.receive 0 0 0) (waiting (0x109 :: List.replicate 12 1)))
      = some (.checksumMismatch, [0x001, 0x001], some (.fail .checksumMismatch 0x0011)) := by decide

/-- T-REF-7. -/
theorem test_loadp : look (fun t => t.txp) (exec (.loadp 0 0x0007 0x0001) State.reset) = some [(7, 0x01)] := by decide

/-- T-REF-6. -/
theorem test_loadp_refused :
    look (fun t => (t.txp, t.diagLog)) (exec (.loadp 0 0x0008 0x0001) State.reset) = some ([], [.refused 0xA000]) := by
  decide

/-- T-REF-1, T-REF-2, T-REF-3 and the other reserved rows: the `diag_data` of the REFUSED event. -/
theorem test_reserved :
    look (fun t => t.diagLog) (exec (.reservedOp0 0 0 0) State.reset) = some [.refused 0x0000] ∧
      look (fun t => t.diagLog) (exec (.reservedOpB 0 0 0) State.reset) = some [.refused 0xB000] ∧
      look (fun t => t.diagLog) (exec (.reservedOpC 1 0 0) State.reset) = some [.refused 0xC001] ∧
      look (fun t => t.diagLog) (exec (.reservedOpD 2 0 0) State.reset) = some [.refused 0xD002] ∧
      look (fun t => t.diagLog) (exec (.reservedOpE 3 0 0) State.reset) = some [.refused 0xE003] ∧
      look (fun t => t.diagLog) (exec (.reservedOpF 4 0 0) State.reset) = some [.refused 0xF004] ∧
      look (fun t => t.diagLog) (exec (.reservedRsvdBit0 2 1 1 8 0) State.reset) = some [.refused 0x2101] ∧
      look (fun t => t.diagLog) (exec (.reservedRsvdBit1 2 2 1 8 0) State.reset) = some [.refused 0x2201] ∧
      look (fun t => t.diagLog) (exec (.reservedRsvdBit2 0 4 0 0 0) State.reset) = some [.refused 0x0400] ∧
      look (fun t => t.diagLog) (exec (.reservedRsvdBit3 15 8 0 0 0) State.reset) = some [.refused 0xF800] := by decide

/-! ### Operations -/

/-- T-DEC-T1: the environment moves of the vector, one for each step. -/
theorem test_timeout_in_attempt :
    look (fun t => (t.rxKind, t.rxq, t.diagLog)) (exec (.receive 0 0 0) { waiting [0x1AA] with
      script := List.replicate 2 EnvMove.quiet ++
        [{ EnvMove.quiet with ticks := 40 }, EnvMove.quiet, { EnvMove.quiet with arrivals := [0x1AA] },
          { EnvMove.quiet with ticks := 40 }, EnvMove.quiet, { EnvMove.quiet with arrivals := [0x1AA] },
          { EnvMove.quiet with ticks := 40 }] })
      = some (.timeout, [0x1AA], [.resync 1, .timeoutEvt]) := by decide

/-- P2, the variant with the clock wrapping: elapsed 32, 100, 101. -/
theorem test_deadline_across_wrap :
    look (fun t => (t.qValue, t.rxKind)) (exec (.query 0x00 0x0010 0) { State.reset with
      now := 0xFFFFFFF0
      script := List.replicate 9 EnvMove.quiet ++ [{ EnvMove.quiet with ticks := 32 }, EnvMove.quiet,
        { EnvMove.quiet with ticks := 68 }, EnvMove.quiet, { EnvMove.quiet with ticks := 1 }] })
      = some (0xFFFF, .noData) := by decide

/-- T-CK-4, T-CK-6. -/
theorem test_checksum :
    checksum 0x01 [0x04, 0xD2] = 0x00D7 ∧ checksum 0xFF (List.replicate 8 0xFF) = 0x08F7 := by decide

/-- T-EL-2, T-EL-4, T-EL-5. -/
theorem test_elapsed :
    elapsed 32 0xFFFFFFF0 0x00000010 = 0x20 ∧ elapsed 32 1 0 = 0xFFFFFFFF ∧ elapsed 8 0xF0 0x10 = 0x20 := by decide

/-- T-BE-5, T-BE-6, T-BE-7, R200: `Q_VALUE` as int16. -/
theorem test_converter :
    be16Unpack 0x04 0xD2 = 0x04D2 ∧ portQValue { State.reset with qValue := be16Unpack 0xFF 0xFE } = -2 ∧
      portQValue { State.reset with qValue := be16Unpack 0x80 0x00 } = -32768 := by decide

/-- T-REF-8, R243: a word presented during an operation is refused, and the operation goes on. -/
theorem test_refused_while_busy :
    look (fun t => (t.rxKind, t.refusedPulses, t.diagLog.head?)) (exec (.receive 0 0 0) { waiting [0x105, 0x000, 0x005] with
      script := [{ EnvMove.quiet with present := some 0x900000000000 }] })
      = some (.ok, 1, some (.refused 0x9000)) := by decide

/-! ### Witnesses: a concrete state and operands for the hypotheses of each statement -/

/-- The parameters of the reset instance, and of the smallest buffer, are within the bounds of R13 and R14. -/
theorem witness_params :
    Config.specExample.Valid ∧ (full opReceive).cfg.Valid ∧
      ({ Config.specExample with bufCap := 5, maxPayload := 4, clockW := 8 } : Params).Valid ∧
      ({ Config.specExample with bufCap := 255, maxPayload := 252 } : Params).Valid := by decide

theorem witness_DecodeUndoesEncode :
    (Instr.frame 0x09 [1, 2, 3, 4, 5, 6, 7, 8] 0x002D).wellFormed Config.specExample = true ∧
      (Instr.frame 0x05 [] 0x0005).wellFormed Config.specExample = true ∧
      (Instr.reqFrame 0x01 0x0008 0x0000 0x0009).wellFormed Config.specExample = true ∧
      (Instr.rspFrame 0x01 0x04D2 0x00D7).wellFormed Config.specExample = true ∧
      (Instr.reservedRsvdBit0 0x2 0xF 0x01 0x0008 0).wellFormed Config.specExample = true ∧
      (Instr.reservedRsvdBit3 0x2 0x8 0x01 0x0008 0).wellFormed Config.specExample = true := by decide

theorem witness_UnitHasOneMeaning :
    (0x100 : LineUnit).getLsbD 8 = true ∧ (0x0FF : LineUnit).getLsbD 8 = false := by decide

theorem witness_ReservedWordsAreRefused :
    cmdRsvd 0x210100080000 ≠ 0 ∧ cmdOp 0x000000000000 ∈ [0x0#4, 0xB#4, 0xC#4, 0xD#4, 0xE#4, 0xF#4] ∧
      cmdOp 0xF00000000000 ∈ [0x0#4, 0xB#4, 0xC#4, 0xD#4, 0xE#4, 0xF#4] := by decide

/-- T-DEC-6: bit 4 of the second of two payload bytes; and the highest bit of the first. -/
theorem witness_SingleBitFlipIsDetected :
    4 < 8 ∧ 7 < 8 ∧ (0x00D7 : Half) = checksum 0x01 [0x04, 0xD2] ∧ 1 < ([0x04, 0xD2] : List Byte).length := by decide

/-- T-CK-8's bytes in both orders. -/
theorem witness_ChecksumBlindSpots : ([0x10, 0x01] : List Byte).Perm [0x01, 0x10] := List.Perm.swap _ _ _

theorem witness_ElapsedIsModularSubtraction :
    Config.specExample.Valid ∧ (0xFFFFFFF0 : Clock).toNat < 2 ^ Config.specExample.clockW ∧
      (0x00000010 : Clock).toNat < 2 ^ Config.specExample.clockW := by decide

theorem witness_StartUnitBecomesByteZero :
    1 ≤ State.reset.cfg.bufCap ∧ State.reset.cursor = 0 ∧ 1 ≤ (collecting opReceive).cfg.bufCap ∧
      (collecting opReceive).cursor ≠ 0 := by decide

theorem witness_DataUnitIsAppendedOrOverflows :
    (collecting opReceive).cfg.bufCap ≤ 255 ∧ (full opReceive).cfg.bufCap ≤ 255 ∧
      (collecting opReceive).cursor.toNat < (collecting opReceive).cfg.bufCap ∧
      ((full opReceive).cursor.toNat = (full opReceive).cfg.bufCap ∧ (full opReceive).curOp = opReceive) ∧
      ((full opRecvReq).cursor.toNat = (full opRecvReq).cfg.bufCap ∧ (full opRecvReq).curOp = opRecvReq) ∧
      ((full opQuery).cursor.toNat = (full opQuery).cfg.bufCap ∧ (full opQuery).curOp = opQuery) := by decide

/-- The last index of a buffer of 3 bytes. -/
theorem witness_UnitsStoreOneByte :
    look (fun _ => ()) (exec (.start 0x01) (collecting opReceive)) = some () ∧
      (collecting opReceive).cursor.toNat < (collecting opReceive).cfg.bufCap ∧
      look (fun _ => ()) (exec (.data 0x01) { collecting opReceive with cfg := (full opReceive).cfg }) = some () ∧
      (collecting opReceive).cursor.toNat < (full opReceive).cfg.bufCap := by decide

/-- An empty payload and one of MAX_PAYLOAD bytes. -/
theorem witness_FrameIsLatched :
    (collecting opReceive).cfg.Valid ∧ ([] : List Byte).length ≤ (collecting opReceive).cfg.maxPayload ∧
      ([1, 2, 3, 4, 5, 6, 7, 8] : List Byte).length ≤ (collecting opReceive).cfg.maxPayload ∧
      (collecting opReceive).curOp = opReceive := by decide

theorem witness_CorruptFrameIsRejected :
    (collecting opReceive).curOp = opReceive ∧ (0x00D7 : Half) ≠ checksum 0xD2 [] ∧
      (0x0008 : Half) ≠ checksum 0x01 (requestPayload 0x0008 0x0000) ∧
      (0x00D6 : Half) ≠ checksum 0x01 (be16Pack 0x04D2) := by decide

theorem witness_RequestFrameIsTaken :
    (collecting opRecvReq).cfg.Valid ∧ (collecting opRecvReq).curOp = opRecvReq := by decide

/-- A block in the wait loop of request `op`, with an attempt under way. -/
def replying (op : Nibble) : State := { collecting op with ctl := .sent }

theorem witness_ResponseFrameResolvesRequest :
    ((replying opQuery).cfg.Valid ∧ (replying opQuery).ctl = .sent ∧ (replying opQuery).curOp = opQuery) ∧
      ((replying opControl).cfg.Valid ∧ (replying opControl).ctl = .sent ∧ (replying opControl).curOp = opControl) := by
  decide

/-- No payload (T-DEC-3) and 3 bytes (T-CTL-6). -/
theorem witness_ReplyOfWrongLengthFails :
    (collecting opQuery).cfg.Valid ∧ ([] : List Byte).length ≤ (collecting opQuery).cfg.maxPayload ∧
      ([] : List Byte).length ≠ 2 ∧ ([1, 2, 3] : List Byte).length ≤ (collecting opQuery).cfg.maxPayload ∧
      ([1, 2, 3] : List Byte).length ≠ 2 ∧ (collecting opQuery).curOp = opQuery := by decide

theorem witness_SetTimeoutCompletes : State.reset.busy = false := rfl

/-- T-REF-6, T-REF-7: index 7 is the last, index 8 the first refused. -/
theorem witness_LoadpCompletes :
    State.reset.busy = false ∧ (0x0007 : Half).toNat % 256 < State.reset.cfg.maxPayload ∧
      look (fun _ => ()) (exec (.loadp 0 0x0007 0x0001) State.reset) = some () ∧
      State.reset.cfg.maxPayload ≤ (0x0008 : Half).toNat % 256 := by decide

theorem reset_quiescent : Quiescent State.reset := ⟨rfl, rfl, rfl, rfl⟩

theorem reset_noReset : NoReset State.reset := by intro m hm; cases hm

theorem reset_quietScript : QuietScript State.reset := by intro m hm; cases hm

theorem reset_noArrivals : NoArrivals State.reset := by intro m hm; cases hm

/-- T-REF-5: `L = MAX_PAYLOAD`; and `L = 0`; units arrive and a word is presented meanwhile. -/
theorem witness_SendWritesItsFrame :
    Quiescent State.reset ∧ NoReset State.reset ∧ (0x0008 : Half).toNat % 256 ≤ State.reset.cfg.maxPayload ∧
      (0x0000 : Half).toNat % 256 ≤ State.reset.cfg.maxPayload ∧
      NoReset { State.reset with
        script := [{ EnvMove.quiet with arrivals := [0x101], present := some 0x900000000000 }] } := by
  refine ⟨reset_quiescent, reset_noReset, by decide, by decide, ?_⟩
  intro m hm
  simp only [List.mem_singleton] at hm
  subst hm
  rfl

/-- T-REF-4. -/
theorem witness_SendBeyondBoundIsRefused : State.reset.cfg.maxPayload < (0x0009 : Half).toNat % 256 := by decide

theorem witness_SendRspWritesItsFrame : Quiescent State.reset ∧ NoReset State.reset :=
  ⟨reset_quiescent, reset_noReset⟩

/-- Units waiting, and a clock that advances while they are read. -/
theorem witness_ReceiveIsDecodeQueue :
    (waiting responseUnits).cfg.Valid ∧ Quiescent (waiting responseUnits) ∧
      NoArrivals { waiting responseUnits with script := [{ EnvMove.quiet with ticks := 40 }] } := by
  refine ⟨by decide, ⟨rfl, rfl, rfl, rfl⟩, ?_⟩
  intro m hm
  simp only [List.mem_singleton] at hm
  subst hm
  exact ⟨rfl, rfl, rfl⟩

/-- The clock advances by exactly `TIMEOUT` over the script, which is no timeout (T-DEC-T2), and by 1 ms more. -/
theorem witness_ReceiveIsDecodeQueue_ticks :
    scriptTicks { waiting responseUnits with script := [{ EnvMove.quiet with ticks := 100 }] }
        ≤ (waiting responseUnits).timeout.toNat ∧
      look (fun t => t.rxKind) (exec (.receive 0 0 0) { waiting responseUnits with
        script := List.replicate 2 EnvMove.quiet ++ [{ EnvMove.quiet with ticks := 100 }] }) = some .ok ∧
      look (fun t => t.rxKind) (exec (.receive 0 0 0) { waiting responseUnits with
        script := List.replicate 2 EnvMove.quiet ++ [{ EnvMove.quiet with ticks := 101 }] }) = some .timeout := by
  decide

/-- The three ways in which such an attempt ends: TIMEOUT (T-DEC-T5), OK (T-DEC-2), not OK (T-DEC-5). -/
theorem witness_ReceiveIsDecodeQueue_outcomes :
    look (fun t => t.rxKind) (exec (.receive 0 0 0) { waiting responseUnits with
      timeout := 0, script := List.replicate 2 EnvMove.quiet ++ [{ EnvMove.quiet with ticks := 1 }] })
      = some .timeout ∧
    look (fun t => t.rxKind) (exec (.receive 0 0 0) (waiting responseUnits)) = some .ok ∧
    look (fun t => t.rxKind) (exec (.receive 0 0 0) (waiting [0x101, 0x022])) = some .truncated := by decide

/-- T-ENC-6 on the reset instance, BUF_CAP = MAX_LEN, a payload of MAX_PAYLOAD bytes. -/
theorem witness_SentFrameIsReceived :
    State.reset.cfg.Valid ∧ State.reset.cfg.maxLen ≤ State.reset.cfg.bufCap ∧
      ([1, 2, 3, 4, 5, 6, 7, 8] : List Byte).length ≤ State.reset.cfg.maxPayload ∧
      Quiescent (waiting (encodeFrame 0x09 [1, 2, 3, 4, 5, 6, 7, 8])) ∧
      NoArrivals (waiting (encodeFrame 0x09 [1, 2, 3, 4, 5, 6, 7, 8])) ∧
      scriptTicks (waiting (encodeFrame 0x09 [1, 2, 3, 4, 5, 6, 7, 8])) ≤ State.reset.timeout.toNat ∧
      look (fun t => t.rxKind) (exec (.receive 0 0 0) (waiting (encodeFrame 0x09 [1, 2, 3, 4, 5, 6, 7, 8])))
        = some .ok := by
  refine ⟨by decide, by decide, by decide, ⟨rfl, rfl, rfl, rfl⟩, ?_, by decide, by decide⟩
  intro m hm
  cases hm

/-- T-DEC-7, and a run of `MAX_LEN - 1` units before a frame that fills the buffer. -/
theorem witness_ResynchronizationFindsTheFrame :
    Config.specExample.Valid ∧ 1 ≤ ([0x107, 0x011, 0x022] : List LineUnit).length ∧
      ([0x107, 0x011, 0x022] : List LineUnit).length ≤ Config.specExample.bufCap ∧
      (List.replicate 10 (0x001 : LineUnit)).length < Config.specExample.maxLen ∧
      ([1, 2, 3, 4, 5, 6, 7, 8] : List Byte).length ≤ Config.specExample.maxPayload ∧
      ([1, 2, 3, 4, 5, 6, 7, 8] : List Byte).length + 3 ≤ Config.specExample.bufCap := by decide

/-- T-DEV-1, T-DEV-3, T-DEV-2: a request, a response, nothing. -/
theorem witness_RecvReqTakesOneRequest :
    (waiting requestUnits).cfg.Valid ∧ Quiescent (waiting requestUnits) ∧ QuietScript (waiting requestUnits) ∧
      ((decodeQueue Config.specExample requestUnits).kind = .ok ∧
        (decodeQueue Config.specExample requestUnits).payload = requestPayload 0x0008 0x0000 ∧
        (decodeQueue Config.specExample requestUnits).port = 0x01) ∧
      ((decodeQueue Config.specExample responseUnits).kind = .ok ∧
        (decodeQueue Config.specExample responseUnits).payload.length ≠ 4) ∧
      (decodeQueue Config.specExample []).kind ≠ .ok := by
  refine ⟨by decide, ⟨rfl, rfl, rfl, rfl⟩, ?_, by decide, by decide, by decide⟩
  intro m hm
  cases hm

theorem responseUnits_eq : encodeFrame 0x01 (be16Pack 0x04D2) = responseUnits := by decide

/-- Both ways to be answered: the stale frame of T-CTL-9, and T-CTL-1. -/
theorem witness_QueryReturnsTheValue :
    State.reset.cfg.Valid ∧ 5 ≤ State.reset.cfg.bufCap ∧
      (Quiescent (waiting responseUnits) ∧ Answered (waiting responseUnits) (encodeFrame 0x01 (be16Pack 0x04D2))) ∧
      (Quiescent (answeredBy responseUnits) ∧
        Answered (answeredBy responseUnits) (encodeFrame 0x01 (be16Pack 0x04D2))) := by
  rw [responseUnits_eq]
  refine ⟨by decide, by decide, ⟨⟨rfl, rfl, rfl, rfl⟩, .inl ⟨?_, rfl⟩⟩, ⟨rfl, rfl, rfl, rfl⟩, .inr ⟨rfl, 0, rfl⟩⟩
  intro m hm
  cases hm

theorem witness_ControlReportsTheResponse :
    (answeredBy responseUnits).cfg.Valid ∧ 5 ≤ (answeredBy responseUnits).cfg.bufCap ∧
      Quiescent (answeredBy responseUnits) ∧
      Answered (answeredBy responseUnits) (encodeFrame 0x01 (be16Pack 0x04D2)) := by
  rw [responseUnits_eq]
  exact ⟨by decide, by decide, ⟨rfl, rfl, rfl, rfl⟩, .inr ⟨rfl, 0, rfl⟩⟩

/-- P4: the raw value 3 is in DEVTYPE_TABLE, 9 is not. -/
theorem witness_ScanMapsTheRawValue :
    State.reset.cfg.Valid ∧ 5 ≤ State.reset.cfg.bufCap ∧
      (Quiescent (answeredBy (encodeFrame 0x02 (be16Pack 0x0003))) ∧
        Answered (answeredBy (encodeFrame 0x02 (be16Pack 0x0003))) (encodeFrame 0x02 (be16Pack 0x0003))) ∧
      State.reset.cfg.devtypeTable.lookup 0x0003 = some 3 ∧ State.reset.cfg.devtypeTable.lookup 0x0009 = none :=
  ⟨by decide, by decide, ⟨⟨rfl, rfl, rfl, rfl⟩, .inr ⟨rfl, 0, rfl⟩⟩, by decide, by decide⟩

/-- P5a. -/
theorem witness_GetRevisionReadsThree :
    State.reset.cfg.Valid ∧ 5 ≤ State.reset.cfg.bufCap ∧
      Quiescent { State.reset with script := revisionScript } ∧
      revisionScript = answerScript (encodeFrame 0x04 (be16Pack 0x0004)) 17 ++
        answerScript (encodeFrame 0x04 (be16Pack 0x0004)) 17 ++ answerScript (encodeFrame 0x04 (be16Pack 0x0002)) 0 :=
  ⟨by decide, by decide, ⟨rfl, rfl, rfl, rfl⟩, by decide⟩

/-- T-DEC-5's two units; and an OK frame whose payload is not 2 bytes (T-DEC-3). -/
theorem witness_FailureGivesTheSentinel :
    State.reset.cfg.Valid ∧ Quiescent (waiting [0x101, 0x022]) ∧ QuietScript (waiting [0x101, 0x022]) ∧
      (waiting [0x101, 0x022]).rxq ≠ [] ∧
      ¬ ((decodeQueue Config.specExample [0x101, 0x022]).kind = .ok ∧
        (decodeQueue Config.specExample [0x101, 0x022]).payload.length = 2) ∧
      ¬ ((decodeQueue Config.specExample [0x105, 0x000, 0x005]).kind = .ok ∧
        (decodeQueue Config.specExample [0x105, 0x000, 0x005]).payload.length = 2) := by
  refine ⟨by decide, ⟨rfl, rfl, rfl, rfl⟩, ?_, by decide, by decide, by decide⟩
  intro m hm
  cases hm

/-- P2: 101 milliseconds after S0, TIMEOUT = 100. -/
theorem witness_UnansweredRequestTimesOut :
    State.reset.cfg.Valid ∧ Quiescent { State.reset with script := silenceScript 101 } ∧ State.reset.rxq = [] ∧
      { State.reset with script := silenceScript 101 }.script = silenceScript 101 ∧
      State.reset.timeout.toNat < 101 ∧ 101 < 2 ^ State.reset.cfg.clockW :=
  ⟨by decide, ⟨rfl, rfl, rfl, rfl⟩, rfl, rfl, by decide, by decide⟩

/-- P2: 100 milliseconds after S0. -/
theorem witness_RequestWaitsUntilTheDeadline :
    State.reset.cfg.Valid ∧ Quiescent { State.reset with script := silenceScript 100 } ∧ State.reset.rxq = [] ∧
      { State.reset with script := silenceScript 100 }.script = silenceScript 100 ∧
      100 ≤ State.reset.timeout.toNat ∧ 100 < 2 ^ State.reset.cfg.clockW :=
  ⟨by decide, ⟨rfl, rfl, rfl, rfl⟩, rfl, rfl, by decide, by decide⟩

/-- A request that polls a silent line. -/
def polling : State := { State.reset with busy := true, curOp := opQuery, ctl := .sent, rxKind := .noData }

theorem witness_SilentWaitNeverEnds :
    polling.busy = true ∧ isRequestOp polling.curOp = true ∧ waitsOnSilence polling = true ∧
      polling.now.toNat < 2 ^ polling.cfg.clockW ∧ polling.cfg.clockW ≤ 32 := by decide

/-- A busy block at S4, a RECEIVE word presented to it (T-REF-8). -/
def disturbed : State :=
  { collecting opReceive with rxq := [0x0D2], script := [{ EnvMove.quiet with present := some 0x900000000000 }] }

theorem witness_BusyBlockRefusesEveryWord :
    disturbed.busy = true ∧ (nextMove disturbed).rst = false ∧
      (nextMove disturbed).present = some 0x900000000000 := by decide

/-- T-REF-8: the unit is stored all the same, and the word leaves its event and its pulse. -/
theorem test_step_refuses_presented :
    look (fun t => (t.cursor, t.curOp, t.diagLog, t.refusedPulses)) (step disturbed)
      = some (3, opReceive, [.refused 0x9000], 1) := by decide

/-- SET_TIMEOUT and LOADP, the first and the last `op`, and SEND with `L = MAX_PAYLOAD`. -/
theorem witness_AcceptedCommandIsLatched :
    State.reset.busy = false ∧ NoReset State.reset ∧
      (∀ w ∈ ([0x100000000064, 0xA00000070001, 0x800100080000] : List CmdWord),
        cmdRsvd w = 0 ∧ 0x1 ≤ (cmdOp w).toNat ∧ (cmdOp w).toNat ≤ 0xA ∧
        ¬ (cmdOp w = 0x8 ∧ State.reset.cfg.maxPayload < (cmdA w).toNat % 256) ∧
        ¬ (cmdOp w = 0xA ∧ State.reset.cfg.maxPayload ≤ (cmdA w).toNat % 256) ∧
        look (fun _ => ()) (exec (decodeCommand w) State.reset) = some ()) :=
  ⟨rfl, reset_noReset, by
    intro w hm
    simp only [List.mem_cons, List.not_mem_nil, or_false] at hm
    rcases hm with rfl | rfl | rfl <;> decide⟩

theorem witness_CommandsKeepOtherRegisters :
    NoReset State.reset ∧ State.reset.enc = none ∧
      look (fun _ => ()) (exec (.query 1 8 0) State.reset) = some () ∧
      look (fun _ => ()) (exec (.control 1 8 0) State.reset) = some () ∧
      look (fun _ => ()) (exec (.scan 1 8 0) State.reset) = some () ∧
      look (fun _ => ()) (exec (.getRevision 1 8 0) State.reset) = some () ∧
      look (fun _ => ()) (exec (.recvReq 1 8 0) State.reset) = some () ∧
      look (fun _ => ()) (exec (.receive 1 8 0) State.reset) = some () :=
  ⟨reset_noReset, rfl, by decide, by decide, by decide, by decide, by decide, by decide⟩

theorem witness_UnusedFieldsAreIgnored : State.reset.busy = false ∧ lowByte 0x0102 = lowByte 0xFF02 := by decide

/-- A block at S3 of a RECEIVE, one unit waiting. -/
def atLoop : State := { State.reset with busy := true, curOp := opReceive, cp := .dLoop, rxq := [0x105] }

theorem atLoop_inv : BlockInv atLoop where
  params := by decide
  clocks := ⟨by decide, by decide, by decide, by decide⟩
  arrays := ⟨by decide, by decide, by decide, by decide, by decide, by decide⟩
  decode := ⟨by decide, by decide, by decide, by decide, by decide, by decide, by decide, by decide⟩
  operation := ⟨by decide, by decide, by decide, by decide, by decide, by decide, fun _ h => by cases h⟩
  result := ⟨by decide, by decide⟩

theorem reset_inv : BlockInv State.reset where
  params := by decide
  clocks := ⟨by decide, by decide, by decide, by decide⟩
  arrays := ⟨by decide, by decide, by decide, by decide, by decide, by decide⟩
  decode := ⟨by decide, by decide, by decide, by decide, by decide, by decide, by decide, by decide⟩
  operation := ⟨by decide, by decide, by decide, by decide, by decide, by decide, fun _ h => by cases h⟩
  result := ⟨by decide, by decide⟩

theorem witness_CommandsComeToRest : BlockInv State.reset ∧ State.reset.busy = false := ⟨reset_inv, rfl⟩

theorem witness_CommandsWithoutRequestEnd :
    BlockInv State.reset ∧ State.reset.busy = false ∧
      Instr.receive 0 0 0 ∈
        [Instr.setTimeout 0 0 0, .loadp 0 0 0, .send 0 0 0, .sendRsp 0 0 0, .receive 0 0 0, .recvReq 0 0 0] :=
  ⟨reset_inv, rfl, by decide⟩

/-- A word on `cmd_word`, and a word of the waiting host. -/
theorem witness_StepRunsThePresentedCommand :
    ({ State.reset with script := [{ EnvMove.quiet with present := some 0x900000000000 }] }.busy = false ∧
      (nextMove { State.reset with script := [{ EnvMove.quiet with present := some 0x900000000000 }] }).rst = false ∧
      (nextMove { State.reset with script := [{ EnvMove.quiet with present := some 0x900000000000 }] }).present
        = some 0x900000000000) ∧
    ({ State.reset with hostq := [0x900000000000] }.busy = false ∧
      (nextMove { State.reset with hostq := [0x900000000000] }).rst = false ∧
      (nextMove { State.reset with hostq := [0x900000000000] }).present = none ∧
      { State.reset with hostq := [0x900000000000] }.hostq = [0x900000000000]) := by decide

theorem witness_StepRunsTheWaitingUnit :
    { collecting opReceive with rxq := [0x0D2] }.busy = true ∧ (collecting opReceive).enc = none ∧
      (collecting opReceive).cp = .dRead ∧ (nextMove (collecting opReceive)).rst = false ∧
      (nextMove (collecting opReceive)).present = none ∧
      (environmentActs { collecting opReceive with rxq := [0x0D2] }).rxq = [0x0D2] := by decide

/-- A frame that fills BUF. -/
def collected : State :=
  { full opReceive with cp := .dFinish, buf := [(0, 0x05), (1, 0x00), (2, 0x05)] }

theorem witness_StepRunsTheCollectedFrame :
    collected.busy = true ∧ collected.enc = none ∧ collected.cp = .dFinish ∧
      collected.cursor.toNat ≤ collected.cfg.bufCap ∧ (nextMove collected).rst = false ∧
      (nextMove collected).present = none ∧
      decodeBytes (bytesAt collected .buf 0 collected.cursor.toNat) = .ok (.frame 0x05 [] 0x0005) := by decide

theorem witness_StepOfBusyBlockIsTick : atLoop.busy = true := rfl

/-- S1 of a RECEIVE, with the given units waiting. -/
def atBegin (us : List LineUnit) : State := { atLoop with cp := .dBegin, rxq := us }

/-- S5 of a RECEIVE after `n` bytes, with the given units waiting. -/
def atGap (n : Byte) (us : List LineUnit) : State := { atLoop with cp := .dEof, cursor := n, rxq := us }

/-- One state for each row of the table of R160, in the order of the statement; S3 at the deadline and 1 ms later, S5
at MAX_LEN and one byte before. -/
theorem witness_DecodeTransitions :
    ((atBegin []).enc = none ∧ (atBegin []).cp = .dBegin ∧ (atBegin []).s1Seen = false ∧ (atBegin []).cursor = 0 ∧
      (atBegin []).rxq = []) ∧
    ((atBegin [0x105]).enc = none ∧ (atBegin [0x105]).cp = .dBegin ∧ (atBegin [0x105]).s1Seen = false ∧
      (atBegin [0x105]).rxq ≠ []) ∧
    ({ atBegin [0x105] with s1Seen := true }.enc = none ∧ { atBegin [0x105] with s1Seen := true }.cp = .dBegin ∧
      { atBegin [0x105] with s1Seen := true }.s1Seen = true) ∧
    ({ atLoop with now := 101 }.enc = none ∧ { atLoop with now := 101 }.cp = .dLoop ∧
      { atLoop with now := 101 }.timeout.toNat
        < (elapsed { atLoop with now := 101 }.cfg.clockW { atLoop with now := 101 }.tStart 101).toNat) ∧
    ({ atLoop with now := 100 }.enc = none ∧ { atLoop with now := 100 }.cp = .dLoop ∧
      (elapsed { atLoop with now := 100 }.cfg.clockW { atLoop with now := 100 }.tStart 100).toNat
        ≤ { atLoop with now := 100 }.timeout.toNat) ∧
    ((collecting opReceive).enc = none ∧ (collecting opReceive).cp = .dRead ∧ (collecting opReceive).rxq = []) ∧
    ({ collecting opReceive with rxq := [0x0D2] }.enc = none ∧
      { collecting opReceive with rxq := [0x0D2] }.cp = .dRead ∧
      { collecting opReceive with rxq := [0x0D2] }.rxq = [0x0D2]) ∧
    ((atGap 2 []).enc = none ∧ (atGap 2 []).cp = .dEof ∧ (atGap 2 []).rxq = []) ∧
    ((atGap 11 [0x001]).enc = none ∧ (atGap 11 [0x001]).cp = .dEof ∧
      (atGap 11 [0x001]).cfg.maxLen ≤ (atGap 11 [0x001]).cursor.toNat) ∧
    ((atGap 10 [0x001]).enc = none ∧ (atGap 10 [0x001]).cp = .dEof ∧ (atGap 10 [0x001]).rxq ≠ [] ∧
      (atGap 10 [0x001]).cursor.toNat < (atGap 10 [0x001]).cfg.maxLen) ∧
    ({ collected with cursor := 2 }.enc = none ∧ { collected with cursor := 2 }.cp = .dFinish ∧
      { collected with cursor := 2 }.cursor.toNat < 3 ∧
      { collected with cursor := 2 }.cursor.toNat ≤ { collected with cursor := 2 }.cfg.bufCap) ∧
    (collected.enc = none ∧ collected.cp = .dFinish ∧ collected.cursor.toNat ≤ collected.cfg.bufCap ∧
      decodeBytes (collectedBytes collected) = .ok (.frame 0x05 [] 0x0005)) := by decide

theorem witness_EveryStepKeepsTheInvariant :
    BlockInv atLoop ∧ look (fun t => t.cp) (step atLoop) = some .dRead := ⟨atLoop_inv, by decide⟩

theorem witness_ResetHasTheInvariant : Config.specExample.Valid := by decide

theorem witness_BlockNeverStops : BlockInv atLoop := atLoop_inv

theorem witness_ParametersAreFixed : look (fun _ => ()) (step atLoop) = some () := by decide

theorem witness_ResetAbandonsTheOperation :
    (nextMove { atLoop with script := [{ EnvMove.quiet with rst := true }] }).rst = true := rfl

/-- Reset before the first unit, and before the last of `L + 3`. -/
theorem witness_ResetCutsTheFrame :
    Quiescent { State.reset with script := List.replicate 4 EnvMove.quiet ++ [{ EnvMove.quiet with rst := true }] } ∧
      (0x0002 : Half).toNat % 256 ≤ State.reset.cfg.maxPayload ∧ 0 < (0x0002 : Half).toNat % 256 + 3 ∧
      4 < (0x0002 : Half).toNat % 256 + 3 ∧ { EnvMove.quiet with rst := true }.rst = true :=
  ⟨⟨rfl, rfl, rfl, rfl⟩, by decide, by decide, by decide, rfl⟩

theorem witness_IdleBlockDoesNothing :
    State.reset.busy = false ∧ State.reset.hostq = [] ∧ (nextMove State.reset).rst = false ∧
      (nextMove State.reset).present = none := by decide

/-- Steps in which TIMEOUT, and a byte of TXP, do change. -/
theorem witness_TimeoutAndTxpHaveOneWriter :
    NoReset { State.reset with hostq := [0x100000000063] } ∧
      look (fun t => t.timeout) (step { State.reset with hostq := [0x100000000063] }) = some 99 ∧
      State.reset.timeout ≠ 99 ∧
      look (fun t => t.txp) (step { State.reset with hostq := [0xA00000070001] }) = some [(7, 0x01)] ∧
      State.reset.txp ≠ [(7, 0x01)] := by
  refine ⟨?_, by decide, by decide, by decide, by decide⟩
  intro m hm
  cases hm

theorem witness_OverflowNeedsASmallBuffer :
    BlockInv atLoop ∧ atLoop.cfg.maxLen ≤ atLoop.cfg.bufCap ∧ atLoop.rxKind ≠ .overflow ∧
      look (fun _ => ()) (step atLoop) = some () := ⟨atLoop_inv, by decide, by decide, by decide⟩

theorem witness_HostReadsTheCodes : BlockInv atLoop := atLoop_inv

/-- A step that emits a FAIL (T-DEC-15's overflow), and one that refuses a word. -/
theorem witness_StepEmitsTheListedEvents :
    look (fun t => t.diagLog) (step { full opReceive with rxq := [0x005] }) = some [.fail .overflow 0] ∧
      look (fun t => t.diagLog) (step disturbed) = some [.refused 0x9000] := by decide

end Sys2Proof.Tests
end

section
/-! SUPPORT. Frame of the parameters (spec 00_scope.md R277): no operation of the block writes `cfg`. One equation per
function that answers a state, one implication per function that may stop, in the order of the definitions. -/

namespace Sys2Proof.Machine

/-! ### The encoder and the controller -/

@[simp] theorem frameSent_cfg (s : State) : (frameSent s).cfg = s.cfg := by
  unfold frameSent
  split <;> rfl

@[simp] theorem encodeTick_cfg (r : EncRun) (s : State) : (encodeTick r s).cfg = s.cfg := by
  cases h : r.stage with
  | portUnit => rw [encodeTick_port s h, writeUnit_cfg]
  | payloadUnit b rest => rw [encodeTick_payload s h, writeUnit_cfg]
  | checksumHigh => rw [encodeTick_high s h, writeUnit_cfg]
  | checksumLow => rw [encodeTick_low s h, frameSent_cfg, emit_cfg, writeUnit_cfg]

@[simp] theorem emitFail_cfg (k : Kind) (d : Half) (s : State) : (emitFail k d s).cfg = s.cfg := rfl

@[simp] theorem startRequest_cfg (register parameter : Half) (port : Byte) (s : State) :
    (startRequest register parameter port s).cfg = s.cfg := rfl

@[simp] theorem startSubQuery_cfg (i : Fin 3) (s : State) : (startSubQuery i s).cfg = s.cfg := rfl

@[simp] theorem setVal_cfg (i : Fin 3) (v : Half) (s : State) : (setVal i v s).cfg = s.cfg := by
  unfold setVal
  split <;> rfl

@[simp] theorem queryResult_cfg (r : Resolution) (s : State) : (queryResult r s).cfg = s.cfg := by
  cases r <;> rfl

@[simp] theorem controlResult_cfg (r : Resolution) (s : State) : (controlResult r s).cfg = s.cfg := by
  cases r <;> rfl

@[simp] theorem scanResult_cfg (r : Resolution) (s : State) : (scanResult r s).cfg = s.cfg := by
  cases r with
  | success v =>
    simp only [scanResult]
    split <;> rfl
  | _ => rfl

@[simp] theorem revisionDone_cfg (s : State) : (revisionDone s).cfg = s.cfg := rfl

@[simp] theorem revisionFailed_cfg (s : State) : (revisionFailed s).cfg = s.cfg := rfl

@[simp] theorem revisionResult_cfg (r : Resolution) (s : State) : (revisionResult r s).cfg = s.cfg := by
  cases r with
  | success v =>
    simp only [revisionResult]
    split <;> simp
  | _ => rfl

@[simp] theorem commandResult_cfg (r : Resolution) (s : State) : (commandResult r s).cfg = s.cfg := by
  unfold commandResult
  split_ifs
  · exact queryResult_cfg r s
  · exact controlResult_cfg r s
  · exact scanResult_cfg r s
  · exact revisionResult_cfg r s

@[simp] theorem concludeRequest_cfg (r : Resolution) (s : State) : (concludeRequest r s).cfg = s.cfg := by
  rw [concludeRequest_eq, commandResult_cfg]

@[simp] theorem leaveResolved_cfg (s : State) : (leaveResolved s).cfg = s.cfg := by
  unfold leaveResolved
  split
  · rw [commandResult_cfg]
  · rfl
  · rfl

@[simp] theorem resolveOk_cfg (s : State) : (resolveOk s).cfg = s.cfg := by
  unfold resolveOk
  split <;> simp

@[simp] theorem requestOutcome_cfg (k : Kind) (s : State) : (requestOutcome k s).cfg = s.cfg := by
  cases k <;> simp [requestOutcome]

@[simp] theorem pollDeadline_cfg (s : State) : (pollDeadline s).cfg = s.cfg := by
  unfold pollDeadline
  split <;> simp

@[simp] theorem controllerTick_cfg (s : State) : (controllerTick s).cfg = s.cfg := by
  unfold controllerTick
  split <;> simp

/-! ### The decode machine -/

@[simp] theorem recvReqResult_cfg (k : Kind) (s : State) : (recvReqResult k s).cfg = s.cfg := by
  unfold recvReqResult
  split_ifs <;> simp

@[simp] theorem deliver_cfg (k : Kind) (s : State) : (deliver k s).cfg = s.cfg := by
  unfold deliver
  split_ifs <;> simp

@[simp] theorem endAttempt_cfg (k : Kind) (s : State) : (endAttempt k s).cfg = s.cfg := by
  rw [endAttempt, deliver_cfg, raiseKind_cfg]

@[simp] theorem testAvailable_cfg (s : State) : (testAvailable s).cfg = s.cfg := by
  unfold testAvailable
  split <;> simp

@[simp] theorem testDeadline_cfg (s : State) : (testDeadline s).cfg = s.cfg := by
  unfold testDeadline
  split <;> simp

@[simp] theorem failTruncated_cfg (s : State) : (failTruncated s).cfg = s.cfg := by
  rw [failTruncated, endAttempt_cfg, emitFail_cfg]

theorem storeStart_cfg {b : Byte} {s t : State} (h : storeStart b s = .next t) : t.cfg = s.cfg := by
  obtain ⟨-, rfl⟩ := storeStart_eq_next h
  dsimp only
  split <;> simp

theorem storeData_cfg {b : Byte} {s t : State} (h : storeData b s = .next t) : t.cfg = s.cfg := by
  obtain ⟨-, rfl⟩ | ⟨-, rfl⟩ := storeData_eq_next h
  · rw [endAttempt_cfg, emitFail_cfg]
  · rfl

theorem storeUnit_cfg {u : LineUnit} {s t : State} (h : storeUnit u s = .next t) : t.cfg = s.cfg := by
  unfold storeUnit at h
  split at h
  · exact storeStart_cfg h
  · exact storeData_cfg h

theorem readUnit_cfg {s t : State} (h : readUnit s = .next t) : t.cfg = s.cfg := by
  cases hq : s.rxq with
  | nil =>
    rw [readUnit_nil hq] at h
    cases h
    rfl
  | cons u rest =>
    rw [readUnit_cons hq] at h
    rw [storeUnit_cfg h]

theorem finishFrame_cfg {p : Byte} {d : List Byte} {ck : Half} {s t : State} (h : finishFrame p d ck s = .next t) :
    t.cfg = s.cfg := by
  obtain ⟨-, -, rfl⟩ | ⟨-, rfl⟩ := finishFrame_eq_next h <;> simp

theorem finishAttempt_cfg {s t : State} (h : finishAttempt s = .next t) : t.cfg = s.cfg := by
  unfold finishAttempt at h
  split_ifs at h
  · cases h
    exact failTruncated_cfg s
  · exact finishFrame_cfg h

/-! ### One action, and the run of an operation -/

@[simp] theorem betweenAttempts_cfg (s : State) : (betweenAttempts s).cfg = s.cfg := by
  unfold betweenAttempts
  split <;> simp

theorem act_cfg {s t : State} (h : act s = .next t) : t.cfg = s.cfg := by
  cases he : s.enc with
  | some r =>
    rw [act_sending he] at h
    cases h
    exact encodeTick_cfg r s
  | none =>
    cases hc : s.cp with
    | dOff =>
      rw [act_off he hc] at h
      cases h
      exact betweenAttempts_cfg s
    | dBegin =>
      rw [act_begin he hc] at h
      cases h
      split <;> simp
    | dLoop =>
      rw [act_loop he hc] at h
      cases h
      exact testDeadline_cfg s
    | dRead => exact readUnit_cfg (act_read he hc ▸ h)
    | dEof =>
      rw [act_eof he hc] at h
      cases h
      exact testGap_cfg s
    | dFinish => exact finishAttempt_cfg (act_finish he hc ▸ h)

@[simp] theorem refusePresented_cfg (m : EnvMove) (s : State) : (refusePresented m s).cfg = s.cfg := by
  unfold refusePresented
  split <;> simp

theorem tick_cfg {s t : State} (h : tick s = .next t) : t.cfg = s.cfg := by
  obtain ⟨-, htick⟩ | ⟨-, htick⟩ := tick_cases s <;> rw [htick] at h
  · cases h
    simp
  · simpa using act_cfg h

theorem runOperation_cfg {s t : State} (h : runOperation s = .next t) : t.cfg = s.cfg :=
  runSteps_keeps (P := fun u => u.cfg = s.cfg) (fun _ _ hu _ htick => (tick_cfg htick).trans hu) _ rfl h

/-- A command keeps the parameters when its first action does. -/
theorem perform_cfg {w : CmdWord} {first : State → State} {s t : State} (hfirst : ∀ u, (first u).cfg = u.cfg)
    (h : perform w first s = .next t) : t.cfg = s.cfg := by
  cases hr : refuses s.cfg s.busy w with
  | true =>
    rw [perform_refused hr] at h
    cases h
    exact refuse_cfg w s
  | false =>
    rw [perform_accepted hr] at h
    rw [runOperation_cfg h, hfirst, accept_cfg]

/-- No instruction writes a parameter: the units store a byte, the frames finish an attempt, a command is performed
from its first action on, and a reserved word is refused. -/
theorem exec_cfg {i : Instr} {s t : State} (h : exec i s = .next t) : t.cfg = s.cfg := by
  cases i with
  | start b => exact storeStart_cfg h
  | data b => exact storeData_cfg h
  | frame | reqFrame | rspFrame => exact finishFrame_cfg h
  | setTimeout | query | control | scan | getRevision | recvReq | sendRsp | send | receive | loadp =>
    simp only [exec, execSetTimeout, execQuery, execControl, execScan, execGetRevision, execRecvReq, execSendRsp,
      execSend, execReceive, execLoadp] at h
    refine perform_cfg ?_ h
    exact fun _ => rfl
  | reservedOp0 | reservedOpB | reservedOpC | reservedOpD | reservedOpE | reservedOpF | reservedRsvdBit0
  | reservedRsvdBit1 | reservedRsvdBit2 | reservedRsvdBit3 =>
    cases h
    exact refuse_cfg _ s

/-! ### The step -/

/-- The state a step goes on from, whatever it has fetched. -/
def Fetched.state : Fetched → State
  | .instruction _ s => s
  | .action s => s
  | .nothing s => s

/-- Everything a step can do: reset, or after the environment's move an instruction, an action of the busy block, or
nothing. -/
theorem step_cases (s : State) :
    ((nextMove s).rst = true ∧ step s = .next (resetBlock (environmentActs s))) ∨
    ((nextMove s).rst = false ∧
      ((∃ i u, fetch (nextMove s) (environmentActs s) = .instruction i u ∧ step s = exec i u) ∨
       (∃ u, fetch (nextMove s) (environmentActs s) = .action u ∧ step s = act u) ∨
       (∃ u, fetch (nextMove s) (environmentActs s) = .nothing u ∧ step s = .next u))) := by
  unfold step
  cases (nextMove s).rst with
  | true => exact .inl ⟨rfl, rfl⟩
  | false =>
    refine .inr ⟨rfl, ?_⟩
    cases hf : fetch (nextMove s) (environmentActs s) with
    | instruction i u => exact .inl ⟨i, u, rfl, rfl⟩
    | action u => exact .inr (.inl ⟨u, rfl, rfl⟩)
    | nothing u => exact .inr (.inr ⟨u, rfl, rfl⟩)

theorem fetchUnit_cfg (s : State) : (fetchUnit s).state.cfg = s.cfg := by
  unfold fetchUnit
  split <;> rfl

theorem fetchFrame_cfg (s : State) : (fetchFrame s).state.cfg = s.cfg := by
  unfold fetchFrame
  split
  · rfl
  · split <;> rfl

theorem fetchBusy_cfg (s : State) : (fetchBusy s).state.cfg = s.cfg := by
  unfold fetchBusy
  split
  · rfl
  · split
    · exact fetchUnit_cfg s
    · exact fetchFrame_cfg s
    all_goals rfl

theorem fetchCommand_cfg (m : EnvMove) (s : State) : (fetchCommand m s).state.cfg = s.cfg := by
  unfold fetchCommand
  split
  · rfl
  · split <;> rfl

theorem fetch_cfg (m : EnvMove) (s : State) : (fetch m s).state.cfg = s.cfg := by
  unfold fetch
  split
  · rw [fetchBusy_cfg, refusePresented_cfg]
  · exact fetchCommand_cfg m s

theorem step_cfg {s t : State} (h : step s = .next t) : t.cfg = s.cfg := by
  have hfetch : (fetch (nextMove s) (environmentActs s)).state.cfg = s.cfg := by
    rw [fetch_cfg, environmentActs_cfg]
  obtain ⟨-, hstep⟩ | ⟨-, ⟨i, u, hu, hstep⟩ | ⟨u, hu, hstep⟩ | ⟨u, hu, hstep⟩⟩ := step_cases s <;> rw [hstep] at h
  · cases h
    rw [resetBlock_cfg, environmentActs_cfg]
  · rw [hu] at hfetch
    exact (exec_cfg h).trans hfetch
  · rw [hu] at hfetch
    exact (act_cfg h).trans hfetch
  · rw [hu] at hfetch
    cases h
    exact hfetch

/-- Settles O51: reset takes over the parameters, fetching leaves them alone, and so do every instruction and every
action of the busy block. -/
theorem parametersAreFixed : Obligations.ParametersAreFixed :=
  fun _ _ h => step_cfg h

end Sys2Proof.Machine
end

section
/-! SUPPORT. The reset state has each part of the invariant (spec 00_scope.md R13, 70_reset_and_hazards.md R271). -/

namespace Sys2Proof.Safety

open Sys2Proof.Machine

/-- TIMEOUT is the one clock register that does not reset to zero; R13 bounds its value. -/
theorem resetOf_clocksFit {c : Params} (h : c.timeoutReset.toNat < 2 ^ c.clockW) : ClocksFit (State.resetOf c) where
  timeout := h
  now := Nat.two_pow_pos _
  tStart := Nat.two_pow_pos _
  tReq := Nat.two_pow_pos _

theorem resetOf_arraysFit (c : Params) : ArraysFit (State.resetOf c) := by
  obtain ⟨hbuf, htxp, hrxp⟩ := resetOf_memory_wf c
  exact ⟨hbuf, htxp, hrxp, List.forall_mem_nil _, List.forall_mem_nil _, List.forall_mem_nil _⟩

/-- No attempt is running and no byte is collected. -/
theorem resetOf_decodeFits (c : Params) : DecodeFits (State.resetOf c) := by
  constructor <;> simp [State.resetOf]

/-- No operation is in progress. -/
theorem resetOf_operationFits (c : Params) : OperationFits (State.resetOf c) := by
  constructor <;> simp [State.resetOf]

theorem resetOf_resultFits (c : Params) : ResultFits (State.resetOf c) where
  kind := .inl rfl
  len := Nat.zero_le _

/-- Settles O49, part by part; only the clock registers need a bound of R13. -/
theorem resetHasTheInvariant : Obligations.ResetHasTheInvariant := by
  intro c hc
  obtain ⟨-, -, -, -, -, -, htimeout, -⟩ := id hc
  exact ⟨hc, resetOf_clocksFit htimeout, resetOf_arraysFit c, resetOf_decodeFits c, resetOf_operationFits c,
    resetOf_resultFits c⟩

end Sys2Proof.Safety
end

section
/-! SUPPORT. What a step is made of (spec 20_memory.md R66, 60_exceptions.md R243): a busy block's step is its action,
an idle block's step performs the word it meets, from the first action of that word's command on. -/

namespace Sys2Proof.Machine

/-! ### Command words -/

/-- A word is assembled from its fields. -/
theorem commandWord_fields (w : CmdWord) : commandWord (cmdOp w) (cmdRsvd w) (cmdPort w) (cmdA w) (cmdB w) = w := by
  apply BitVec.eq_of_getLsbD_eq
  intro i hi
  simp only [commandWord, cmdOp, cmdRsvd, cmdPort, cmdA, cmdB, BitVec.getLsbD_append, BitVec.getLsbD_extractLsb']
  interval_cases i <;> simp

theorem commandWord_of_rsvd_zero {w : CmdWord} {op : Nibble} (hr : cmdRsvd w = 0) (ho : cmdOp w = op) :
    commandWord op 0 (cmdPort w) (cmdA w) (cmdB w) = w := by
  rw [← ho, ← hr, commandWord_fields]

/-- `rsvd` is 0 when none of its four bits is set. -/
theorem rsvd_eq_zero {r : Nibble} (h0 : ¬ r.getLsbD 0 = true) (h1 : ¬ r.getLsbD 1 = true)
    (h2 : ¬ r.getLsbD 2 = true) (h3 : ¬ r.getLsbD 3 = true) : r = 0 := by
  apply BitVec.eq_of_getLsbD_eq
  intro i hi
  interval_cases i <;> simp_all

theorem rsvd_ne_zero {r : Nibble} {k : Nat} (h : r.getLsbD k = true) : r ≠ 0 := by
  rintro rfl
  simp at h

/-- The first action of an accepted command, by `cur_op`. -/
def firstAction (s : State) : State :=
  if s.curOp = opSetTimeout then endOp { s with timeout := msOperand s.cfg.clockW s.opA s.opB }
  else if s.curOp = opQuery ∨ s.curOp = opControl then startRequest s.opA s.opB s.opPort s
  else if s.curOp = opScan then startRequest s.cfg.devtypeReg 0 s.opPort s
  else if s.curOp = opGetRevision then startSubQuery 0 s
  else if s.curOp = opRecvReq ∨ s.curOp = opReceive then startAttempt s
  else if s.curOp = opSendRsp then startFrame s.opPort (be16Pack s.opB) s
  else if s.curOp = opSend then startFrame s.opPort (bytesAt s .txp 0 (lengthOperand s.opA)) s
  else if s.curOp = opLoadp then endOp (storeTxp (indexOperand s.opA) (byteOperand s.opB) s)
  else s

section
variable {s : State}

theorem firstAction_setTimeout (h : s.curOp = opSetTimeout) :
    firstAction s = endOp { s with timeout := msOperand s.cfg.clockW s.opA s.opB } := by
  simp [firstAction, h]

theorem firstAction_query (h : s.curOp = opQuery) : firstAction s = startRequest s.opA s.opB s.opPort s := by
  simp [firstAction, h, opQuery, opSetTimeout]

theorem firstAction_control (h : s.curOp = opControl) : firstAction s = startRequest s.opA s.opB s.opPort s := by
  simp [firstAction, h, opControl, opSetTimeout]

theorem firstAction_scan (h : s.curOp = opScan) : firstAction s = startRequest s.cfg.devtypeReg 0 s.opPort s := by
  simp [firstAction, h, opScan, opSetTimeout, opQuery, opControl]

theorem firstAction_getRevision (h : s.curOp = opGetRevision) : firstAction s = startSubQuery 0 s := by
  simp [firstAction, h, opGetRevision, opSetTimeout, opQuery, opControl, opScan]

theorem firstAction_recvReq (h : s.curOp = opRecvReq) : firstAction s = startAttempt s := by
  simp [firstAction, h, opRecvReq, opSetTimeout, opQuery, opControl, opScan, opGetRevision]

theorem firstAction_receive (h : s.curOp = opReceive) : firstAction s = startAttempt s := by
  simp [firstAction, h, opReceive, opSetTimeout, opQuery, opControl, opScan, opGetRevision]

theorem firstAction_sendRsp (h : s.curOp = opSendRsp) : firstAction s = startFrame s.opPort (be16Pack s.opB) s := by
  simp [firstAction, h, opSendRsp, opSetTimeout, opQuery, opControl, opScan, opGetRevision, opRecvReq, opReceive]

theorem firstAction_send (h : s.curOp = opSend) :
    firstAction s = startFrame s.opPort (bytesAt s .txp 0 (lengthOperand s.opA)) s := by
  simp [firstAction, h, opSend, opSetTimeout, opQuery, opControl, opScan, opGetRevision, opRecvReq, opReceive,
    opSendRsp]

theorem firstAction_loadp (h : s.curOp = opLoadp) :
    firstAction s = endOp (storeTxp (indexOperand s.opA) (byteOperand s.opB) s) := by
  simp [firstAction, h, opLoadp, opSetTimeout, opQuery, opControl, opScan, opGetRevision, opRecvReq, opReceive,
    opSendRsp, opSend]

end

/-- A word is refused by the first two tests of R243, whatever the block is doing. -/
theorem perform_reserved {w : CmdWord} (first : State → State) (s : State)
    (h : cmdRsvd w ≠ 0 ∨ isReservedOp (cmdOp w) = true) : perform w first s = .next (refuse w s) := by
  refine perform_refused ?_
  obtain h | h := h
  · have hne : (cmdRsvd w != 0) = true := bne_iff_ne.mpr h
    rw [refuses, hne, Bool.or_true, Bool.true_or, Bool.true_or, Bool.true_or]
  · simp [refuses, h]

/-- An instruction whose meaning performs a word of `op` performs it from the first action on. -/
theorem exec_eq_firstAction {i : Instr} {w : CmdWord} {op : Nibble} {first : State → State} {s : State}
    (hr : cmdRsvd w = 0) (ho : cmdOp w = op) (hfirst : ∀ u, u.curOp = op → firstAction u = first u)
    (hi : exec i s = perform (commandWord op 0 (cmdPort w) (cmdA w) (cmdB w)) first s) :
    exec i s = perform w firstAction s := by
  rw [hi, commandWord_of_rsvd_zero hr ho]
  unfold perform
  rw [hfirst (accept w s) ho]

/-- The value of `op` that the decoder does not test is the last one. -/
theorem op_eq_last (op : Nibble) (h : op ∉ [0x0#4, opSetTimeout, opQuery, opControl, opScan, opGetRevision, opRecvReq,
    opSendRsp, opSend, opReceive, opLoadp, 0xB#4, 0xC#4, 0xD#4, 0xE#4]) : op = 0xF := by
  revert op
  decide

/-- An instruction chosen by a test does what either choice does under its test. -/
theorem exec_ite {c : Prop} [Decidable c] {i j : Instr} {s : State} {o : Out} (hi : c → exec i s = o)
    (hj : ¬ c → exec j s = o) : exec (if c then i else j) s = o := by
  split
  · exact hi ‹_›
  · exact hj ‹_›

/-- Every word is performed: a reserved word is refused, every other runs from its first action on. -/
theorem exec_decodeCommand (w : CmdWord) (s : State) : exec (decodeCommand w) s = perform w firstAction s := by
  have hreserved (h : cmdRsvd w ≠ 0 ∨ isReservedOp (cmdOp w) = true) :
      Host.Outcome.next (refuse (commandWord (cmdOp w) (cmdRsvd w) (cmdPort w) (cmdA w) (cmdB w)) s) =
        perform w firstAction s := by
    rw [commandWord_fields, perform_reserved _ _ h]
  have hreservedOp {op : Nibble} (hr : cmdRsvd w = 0) (ho : cmdOp w = op) (h : isReservedOp op = true) :
      Host.Outcome.next (refuse (commandWord op 0 (cmdPort w) (cmdA w) (cmdB w)) s) = perform w firstAction s := by
    rw [commandWord_of_rsvd_zero hr ho, perform_reserved _ _ (.inr (ho ▸ h))]
  refine exec_ite (fun h => hreserved (.inl (rsvd_ne_zero h))) fun h0 => ?_
  refine exec_ite (fun h => hreserved (.inl (rsvd_ne_zero h))) fun h1 => ?_
  refine exec_ite (fun h => hreserved (.inl (rsvd_ne_zero h))) fun h2 => ?_
  refine exec_ite (fun h => hreserved (.inl (rsvd_ne_zero h))) fun h3 => ?_
  have hr := rsvd_eq_zero h0 h1 h2 h3
  refine exec_ite (fun ho => hreservedOp hr ho rfl) fun h0 => ?_
  refine exec_ite (fun ho => exec_eq_firstAction hr ho (fun _ => firstAction_setTimeout) rfl) fun h1 => ?_
  refine exec_ite (fun ho => exec_eq_firstAction hr ho (fun _ => firstAction_query) rfl) fun h2 => ?_
  refine exec_ite (fun ho => exec_eq_firstAction hr ho (fun _ => firstAction_control) rfl) fun h3 => ?_
  refine exec_ite (fun ho => exec_eq_firstAction hr ho (fun _ => firstAction_scan) rfl) fun h4 => ?_
  refine exec_ite (fun ho => exec_eq_firstAction hr ho (fun _ => firstAction_getRevision) rfl) fun h5 => ?_
  refine exec_ite (fun ho => exec_eq_firstAction hr ho (fun _ => firstAction_recvReq) rfl) fun h6 => ?_
  refine exec_ite (fun ho => exec_eq_firstAction hr ho (fun _ => firstAction_sendRsp) rfl) fun h7 => ?_
  refine exec_ite (fun ho => exec_eq_firstAction hr ho (fun _ => firstAction_send) rfl) fun h8 => ?_
  refine exec_ite (fun ho => exec_eq_firstAction hr ho (fun _ => firstAction_receive) rfl) fun h9 => ?_
  refine exec_ite (fun ho => exec_eq_firstAction hr ho (fun _ => firstAction_loadp) rfl) fun hA => ?_
  refine exec_ite (fun ho => hreservedOp hr ho rfl) fun hB => ?_
  refine exec_ite (fun ho => hreservedOp hr ho rfl) fun hC => ?_
  refine exec_ite (fun ho => hreservedOp hr ho rfl) fun hD => ?_
  refine exec_ite (fun ho => hreservedOp hr ho rfl) fun hE => ?_
  refine hreservedOp hr (op_eq_last _ ?_) rfl
  simp only [List.mem_cons, not_or]
  exact ⟨h0, h1, h2, h3, h4, h5, h6, h7, h8, h9, hA, hB, hC, hD, hE, List.not_mem_nil⟩

/-- Everything the performance of a word can do: refuse it, or run its operation from the first action on. -/
theorem perform_eq_next {w : CmdWord} {first : State → State} {s t : State} (h : perform w first s = .next t) :
    (refuses s.cfg s.busy w = true ∧ t = refuse w s) ∨
    (refuses s.cfg s.busy w = false ∧ runOperation (first (accept w s)) = .next t) := by
  cases hr : refuses s.cfg s.busy w with
  | true =>
    rw [perform_refused hr] at h
    cases h
    exact .inl ⟨rfl, rfl⟩
  | false =>
    rw [perform_accepted hr] at h
    exact .inr ⟨rfl, h⟩

/-! ### The busy block -/

theorem be16Pack_be16Unpack (b0 b1 : Byte) : be16Pack (be16Unpack b0 b1) = [b0, b1] := by
  have hhigh : highByte (be16Unpack b0 b1) = b0 := by
    apply BitVec.eq_of_getLsbD_eq
    intro i hi
    simp only [highByte, be16Unpack, BitVec.getLsbD_extractLsb', BitVec.getLsbD_append]
    simp [hi]
  have hlow : lowByte (be16Unpack b0 b1) = b1 := by
    apply BitVec.eq_of_getLsbD_eq
    intro i hi
    simp only [lowByte, be16Unpack, BitVec.getLsbD_extractLsb', BitVec.getLsbD_append]
    simp [hi]
  rw [be16Pack, hhigh, hlow]

/-- Whichever row a frame falls under, it finishes the attempt with its own fields. -/
theorem exec_frameInstr (p : Byte) (d : List Byte) (ck : Half) (s : State) :
    exec (frameInstr p d ck) s = finishFrame p d ck s := by
  unfold frameInstr
  split
  · simp only [exec, execRspFrame, be16Pack_be16Unpack]
  · simp only [exec, execReqFrame, requestPayload, be16Pack_be16Unpack, List.cons_append, List.nil_append]
  · rfl

theorem exec_decodeUnit (u : LineUnit) (s : State) : exec (decodeUnit u) s = storeUnit u s := by
  unfold decodeUnit storeUnit
  split <;> rfl

/-- Fewer than 3 collected bytes are no frame. -/
theorem decodeBytes_of_length_lt {bytes : List Byte} (h : bytes.length < 3) :
    decodeBytes bytes = .error .tooShort := by
  match bytes, h with
  | [], _ => rfl
  | [_], _ => rfl
  | [_, _], _ => rfl
  | _ :: _ :: _ :: _, h => simp at h; omega

/-- The fields of 3 collected bytes or more, located from both ends. -/
theorem decodeBytes_of_length_ge {bytes : List Byte} (h : 3 ≤ bytes.length) :
    decodeBytes bytes = .ok (frameInstr (bytes.getD 0 0) ((bytes.drop 1).take (bytes.length - 3))
      (be16Unpack (bytes.getD (bytes.length - 2) 0) (bytes.getD (bytes.length - 1) 0))) := by
  match bytes, h with
  | p :: b1 :: b2 :: rest, _ => simp [decodeBytes]

theorem bytesAt_getD {s : State} {sp : Space} {n i : Nat} (h : i < n) :
    (bytesAt s sp 0 n).getD i 0 = byteAt s sp i := by
  simp [bytesAt, h]

theorem bytesAt_drop_take (s : State) (sp : Space) (n : Nat) :
    ((bytesAt s sp 0 n).drop 1).take (n - 3) = bytesAt s sp 1 (n - 3) := by
  apply List.ext_getElem
  · simp; omega
  · intro i h1 h2
    simp [bytesAt, Nat.add_comm]

/-- The frame that the collected bytes are, executed, is step 4 of the attempt. -/
theorem decodeBytes_collectedBytes {s : State} (h : tooShort s = false) :
    ∃ i, decodeBytes (collectedBytes s) = .ok i ∧ exec i s = splitAndFinish s := by
  have hn : 3 ≤ s.cursor.toNat := by simpa [tooShort] using h
  have hlen : (collectedBytes s).length = s.cursor.toNat := bytesAt_length ..
  refine ⟨_, decodeBytes_of_length_ge (by omega), ?_⟩
  rw [exec_frameInstr, hlen, collectedBytes, bytesAt_drop_take, bytesAt_getD (by omega), bytesAt_getD (by omega),
    bytesAt_getD (by omega)]
  rfl

/-- What is done with what a step has fetched. -/
def Fetched.run : Fetched → Out
  | .instruction i s => exec i s
  | .action s => act s
  | .nothing s => .next s

theorem step_of_rst {s : State} (h : (nextMove s).rst = true) : step s = .next (resetBlock (environmentActs s)) := by
  simp [step, h]

theorem step_eq_run {s : State} (h : (nextMove s).rst = false) :
    step s = (fetch (nextMove s) (environmentActs s)).run := by
  unfold step
  rw [h]
  rfl

/-- At `D_READ` the fetched unit is the one that S4 takes. -/
theorem fetchUnit_run {s : State} (he : s.enc = none) (hc : s.cp = .dRead) : (fetchUnit s).run = act s := by
  rw [act_read he hc]
  cases hq : s.rxq with
  | nil => simp [fetchUnit, hq, Fetched.run, act_read he hc]
  | cons u rest => simp [fetchUnit, hq, Fetched.run, readUnit_cons hq, exec_decodeUnit]

/-- At `D_FINISH` the fetched frame is the one that steps 4 to 6 finish; fewer than 3 bytes are no instruction. -/
theorem fetchFrame_run {s : State} (he : s.enc = none) (hc : s.cp = .dFinish) : (fetchFrame s).run = act s := by
  unfold fetchFrame
  split
  · rfl
  · rename_i hroom
    cases hshort : tooShort s with
    | true =>
      have hlen : (collectedBytes s).length < 3 := by simpa [tooShort, collectedBytes] using hshort
      rw [decodeBytes_of_length_lt hlen]
      rfl
    | false =>
      obtain ⟨i, hi, hexec⟩ := decodeBytes_collectedBytes hshort
      rw [hi, act_finish he hc]
      simp [Fetched.run, hexec, finishAttempt, hroom, hshort]

theorem fetchBusy_run (s : State) : (fetchBusy s).run = act s := by
  cases he : s.enc with
  | some r => simp [fetchBusy, he, Fetched.run]
  | none =>
    cases hc : s.cp with
    | dRead => simpa [fetchBusy, he, hc] using fetchUnit_run he hc
    | dFinish => simpa [fetchBusy, he, hc] using fetchFrame_run he hc
    | dOff | dBegin | dLoop | dEof => simp [fetchBusy, he, hc, Fetched.run]

theorem step_of_busy {s : State} (h : s.busy = true) : step s = tick s := by
  obtain ⟨hr, htick⟩ | ⟨hr, htick⟩ := tick_cases s
  · rw [step_of_rst hr, htick]
  · rw [step_eq_run hr, htick, ← fetchBusy_run, fetch, environmentActs_busy, h, if_pos rfl]

/-- Settles O46: fetching the unit at `D_READ` or the frame at `D_FINISH` is the action the block takes there. -/
theorem stepOfBusyBlockIsTick : Obligations.StepOfBusyBlockIsTick :=
  fun _ h => step_of_busy h

/-! ### The idle block -/

theorem fetch_of_idle {s : State} (h : s.busy = false) :
    fetch (nextMove s) (environmentActs s) = fetchCommand (nextMove s) (environmentActs s) := by
  simp [fetch, h]

/-- Everything a step can do: what the operation in progress is run by, or from the idle block a reset, nothing, or a
command word performed. -/
theorem step_cases_idle (s : State) :
    (s.busy = true ∧ step s = tick s) ∨
    (s.busy = false ∧ (nextMove s).rst = true ∧ step s = .next (resetBlock (environmentActs s))) ∨
    (s.busy = false ∧ (nextMove s).rst = false ∧ step s = .next (environmentActs s)) ∨
    (s.busy = false ∧ (nextMove s).rst = false ∧ ∃ w q,
      fetch (nextMove s) (environmentActs s) = .instruction (decodeCommand w) { environmentActs s with hostq := q } ∧
      step s = perform w firstAction { environmentActs s with hostq := q }) := by
  cases hb : s.busy with
  | true => exact .inl ⟨rfl, step_of_busy hb⟩
  | false =>
    cases hr : (nextMove s).rst with
    | true => exact .inr (.inl ⟨rfl, rfl, step_of_rst hr⟩)
    | false =>
      refine .inr (.inr ?_)
      rw [step_eq_run hr, fetch_of_idle hb]
      cases hp : (nextMove s).present with
      | some w =>
        refine .inr ⟨rfl, rfl, w, s.hostq, ?_⟩
        simp only [fetchCommand, hp]
        exact ⟨rfl, exec_decodeCommand w _⟩
      | none =>
        cases hq : s.hostq with
        | nil => exact .inl ⟨rfl, rfl, by simp [fetchCommand, hp, hq, Fetched.run]⟩
        | cons w rest =>
          refine .inr ⟨rfl, rfl, w, rest, ?_⟩
          simp only [fetchCommand, hp, environmentActs_hostq, hq]
          exact ⟨trivial, exec_decodeCommand w _⟩

end Sys2Proof.Machine
end

section
/-! SUPPORT. What the block's actions leave alone (spec 10_state.md R43): one equation per function, in the order of the
definitions, about the part of the state that the operation of `cur_op` has no business with. -/

namespace Sys2Proof.Machine

/-! ### The part of the state an operation does not write -/

/-- The events of R262 that a step may emit; a FAIL is listed by its kind. -/
def isListed (e : DiagEvent) : Bool :=
  match e with
  | .timeoutEvt => true
  | .fail k _ =>
    k == .truncated || k == .overflow || k == .checksumMismatch || k == .unresolvedDeviceType || k == .badLength
  | .refused _ => true
  | .resync _ => true
  | .frameTx _ _ _ => true
  | .frameRx _ _ _ => true

/-- What the controller and the decode machine leave alone in the operation of `cur_op`, everything else blanked out:
the parameters, TIMEOUT, TXP, the latch, the results of the other commands, the events outside R262, and for an
operation that sends no request the line. The environment's script is the environment's. -/
def untouched (s : State) : State :=
  { State.resetOf s.cfg with
    timeout := s.timeout
    qValue := if s.curOp = opQuery then 0 else s.qValue
    cOk := if s.curOp = opControl then false else s.cOk
    sDevtype := if s.curOp = opScan then 0 else s.sDevtype
    revA := if s.curOp = opGetRevision then 0 else s.revA
    revB := if s.curOp = opGetRevision then 0 else s.revB
    revC := if s.curOp = opGetRevision then 0 else s.revC
    revOk := if s.curOp = opGetRevision then false else s.revOk
    reqOk := if s.curOp = opRecvReq then false else s.reqOk
    reqPort := if s.curOp = opRecvReq then 0 else s.reqPort
    reqRegister := if s.curOp = opRecvReq then 0 else s.reqRegister
    reqParameter := if s.curOp = opRecvReq then 0 else s.reqParameter
    curOp := s.curOp
    opPort := s.opPort
    opA := s.opA
    opB := s.opB
    txp := s.txp
    script := s.script
    enc := if isRequestOp s.curOp then none else s.enc
    txq := if isRequestOp s.curOp then [] else s.txq
    diagLog := s.diagLog.filter fun e => !isListed e
    epoch := s.epoch }

/-- The part of `untouched` that the encoder leaves alone as well. -/
def untouchedBySender (s : State) : State := { untouched s with enc := none, txq := [] }

theorem untouchedBySender_congr {s t : State} (h : untouched t = untouched s) :
    untouchedBySender t = untouchedBySender s := by
  rw [untouchedBySender, h, untouchedBySender]

/-! ### The encoder -/

theorem emit_untouched {e : DiagEvent} (s : State) (h : isListed e = true) :
    untouched (emit e s) = untouched s := by
  have hlog : ((s.diagLog ++ [e]).filter fun e => !isListed e) = s.diagLog.filter fun e => !isListed e := by simp [h]
  exact congrArg (fun l => { untouched s with diagLog := l }) hlog

@[simp] theorem endOp_untouched (s : State) : untouched (endOp s) = untouched s := rfl

theorem encodeTick_untouchedBySender (r : EncRun) (s : State) :
    untouchedBySender (encodeTick r s) = untouchedBySender s := by
  cases h : r.stage with
  | portUnit => rw [encodeTick_port s h]; rfl
  | payloadUnit b rest => rw [encodeTick_payload s h]; rfl
  | checksumHigh => rw [encodeTick_high s h]; rfl
  | checksumLow =>
    have hsent (u : State) : untouched (frameSent u) = untouched u := by
      unfold frameSent
      split <;> rfl
    rw [encodeTick_low s h, untouchedBySender_congr (hsent _), untouchedBySender_congr (emit_untouched _ rfl)]
    rfl

/-! ### The controller -/

section
variable {s : State}

theorem startRequest_untouched (register parameter : Half) (port : Byte) (h : isRequestOp s.curOp = true) :
    untouched (startRequest register parameter port s) = untouched s := by
  have henc (o : Option EncRun) : (if isRequestOp s.curOp then none else o) = none := if_pos h
  exact congrArg (fun o => { untouched s with enc := o }) ((henc _).trans (henc _).symm)

theorem queryResult_untouched (r : Resolution) (h : s.curOp = opQuery) : untouched (queryResult r s) = untouched s := by
  have hset (v : Half) : untouched { s with qValue := v } = untouched s := by simp [untouched, h]
  cases r <;> exact hset _

theorem controlResult_untouched (r : Resolution) (h : s.curOp = opControl) :
    untouched (controlResult r s) = untouched s := by
  have hset (v : Bool) : untouched { s with cOk := v } = untouched s := by simp [untouched, h]
  cases r <;> exact hset _

theorem scanResult_untouched (r : Resolution) (h : s.curOp = opScan) : untouched (scanResult r s) = untouched s := by
  have hset (d : Byte) : untouched { s with sDevtype := d } = untouched s := by simp [untouched, h]
  cases r with
  | success v =>
    simp only [scanResult]
    split
    · exact hset _
    · rw [endOp_untouched, emitFail, emit_untouched _ rfl]
      exact hset _
  | _ => exact hset _

theorem setVal_untouched (i : Fin 3) (v : Half) (s : State) : untouched (setVal i v s) = untouched s := by
  unfold setVal
  split <;> rfl

@[simp] theorem setVal_curOp (i : Fin 3) (v : Half) (s : State) : (setVal i v s).curOp = s.curOp := by
  unfold setVal
  split <;> rfl

theorem startSubQuery_untouched (i : Fin 3) (h : isRequestOp s.curOp = true) :
    untouched (startSubQuery i s) = untouched s :=
  startRequest_untouched (s := { s with revIdx := i }) _ _ _ h

theorem revisionDone_untouched (h : s.curOp = opGetRevision) : untouched (revisionDone s) = untouched s := by
  simp [untouched, revisionDone, h]

theorem revisionFailed_untouched (h : s.curOp = opGetRevision) : untouched (revisionFailed s) = untouched s := by
  simp [untouched, revisionFailed, h]

theorem revisionResult_untouched (r : Resolution) (h : s.curOp = opGetRevision) :
    untouched (revisionResult r s) = untouched s := by
  have hop (i : Fin 3) (v : Half) : isRequestOp (setVal i v s).curOp = true := by rw [setVal_curOp, h]; rfl
  cases r with
  | success v =>
    simp only [revisionResult]
    split
    · rw [startSubQuery_untouched 1 (hop 0 v), setVal_untouched]
    · rw [startSubQuery_untouched 2 (hop 1 v), setVal_untouched]
    · rw [revisionDone_untouched (by rw [setVal_curOp, h]), setVal_untouched]
  | _ => exact revisionFailed_untouched h

/-- The four commands that run requests. -/
theorem isRequestOp_cases {op : Nibble} (h : isRequestOp op = true) :
    op = opQuery ∨ op = opControl ∨ op = opScan ∨ op = opGetRevision := by
  simpa [isRequestOp, or_assoc] using h

theorem commandResult_untouched (r : Resolution) (h : isRequestOp s.curOp = true) :
    untouched (commandResult r s) = untouched s := by
  unfold commandResult
  split_ifs with hq hc hs
  · exact queryResult_untouched r hq
  · exact controlResult_untouched r hc
  · exact scanResult_untouched r hs
  · have hrev : s.curOp = opGetRevision := by simpa [hq, hc, hs] using isRequestOp_cases h
    exact revisionResult_untouched r hrev

theorem concludeRequest_untouched (r : Resolution) (h : isRequestOp s.curOp = true) :
    untouched (concludeRequest r s) = untouched s :=
  commandResult_untouched (s := { s with ctl := .idle }) r h

theorem leaveResolved_untouched (h : isRequestOp s.curOp = true) : untouched (leaveResolved s) = untouched s := by
  unfold leaveResolved
  split
  · exact commandResult_untouched (s := { s with ctl := .idle }) _ h
  · rfl
  · rfl

theorem resolveOk_untouched (h : isRequestOp s.curOp = true) : untouched (resolveOk s) = untouched s := by
  unfold resolveOk
  split
  · exact concludeRequest_untouched _ h
  · refine (concludeRequest_untouched _ ?_).trans (emit_untouched _ rfl)
    exact h

theorem requestOutcome_untouched (k : Kind) (h : isRequestOp s.curOp = true) :
    untouched (requestOutcome k s) = untouched s := by
  cases k with
  | noData => rfl
  | ok => exact resolveOk_untouched h
  | _ => exact concludeRequest_untouched _ h

theorem pollDeadline_untouched (h : isRequestOp s.curOp = true) : untouched (pollDeadline s) = untouched s := by
  unfold pollDeadline
  split
  · refine (concludeRequest_untouched _ ?_).trans (emit_untouched _ rfl)
    exact h
  · rfl

theorem controllerTick_untouched (h : isRequestOp s.curOp = true) : untouched (controllerTick s) = untouched s := by
  unfold controllerTick
  split
  · rfl
  · exact pollDeadline_untouched h
  · exact leaveResolved_untouched h

end

theorem betweenAttempts_untouched (s : State) : untouched (betweenAttempts s) = untouched s := by
  unfold betweenAttempts
  split
  · exact controllerTick_untouched ‹_›
  · rfl

/-! ### The decode machine -/

theorem recvReqResult_untouched (k : Kind) {s : State} (h : s.curOp = opRecvReq) :
    untouched (recvReqResult k s) = untouched s := by
  have hfailed : untouched { s with reqOk := false } = untouched s := by simp [untouched, h]
  unfold recvReqResult
  split_ifs
  · simp [untouched, h]
  · rw [endOp_untouched, emitFail, emit_untouched _ rfl, hfailed]
  · rw [endOp_untouched, hfailed]

theorem deliver_untouched (k : Kind) (s : State) : untouched (deliver k s) = untouched s := by
  unfold deliver
  split_ifs with hreq hrecv
  · exact requestOutcome_untouched k hreq
  · exact recvReqResult_untouched k hrecv
  · rfl

theorem endAttempt_untouched (k : Kind) (s : State) : untouched (endAttempt k s) = untouched s :=
  deliver_untouched k (raiseKind k s)

theorem testAvailable_untouched (s : State) : untouched (testAvailable s) = untouched s := by
  unfold testAvailable
  split
  · rw [endAttempt_untouched]
  · rfl

theorem testDeadline_untouched (s : State) : untouched (testDeadline s) = untouched s := by
  unfold testDeadline
  split
  · rw [endAttempt_untouched, emit_untouched _ rfl]
    rfl
  · rfl

theorem failTruncated_untouched (s : State) : untouched (failTruncated s) = untouched s := by
  rw [failTruncated, endAttempt_untouched, emitFail, emit_untouched _ rfl]
  rfl

section
variable {s t : State}

theorem storeStart_untouched {b : Byte} (h : storeStart b s = .next t) : untouched t = untouched s := by
  obtain ⟨-, rfl⟩ := storeStart_eq_next h
  split
  · rfl
  · exact emit_untouched s rfl

theorem storeData_untouched {b : Byte} (h : storeData b s = .next t) : untouched t = untouched s := by
  obtain ⟨-, rfl⟩ | ⟨-, rfl⟩ := storeData_eq_next h
  · rw [endAttempt_untouched, emitFail, emit_untouched _ rfl]
    rfl
  · rfl

theorem storeUnit_untouched {u : LineUnit} (h : storeUnit u s = .next t) : untouched t = untouched s := by
  unfold storeUnit at h
  split at h
  · exact storeStart_untouched h
  · exact storeData_untouched h

theorem readUnit_untouched (h : readUnit s = .next t) : untouched t = untouched s := by
  cases hq : s.rxq with
  | nil =>
    rw [readUnit_nil hq] at h
    cases h
    rfl
  | cons u rest =>
    rw [readUnit_cons hq] at h
    exact (storeUnit_untouched h).trans rfl

theorem finishFrame_untouched {p : Byte} {d : List Byte} {ck : Half} (h : finishFrame p d ck s = .next t) :
    untouched t = untouched s := by
  have hrx (actual : Half) :
      untouched (emit (.frameRx (p :: (d ++ be16Pack ck)) ck actual) { s with cursor := 0 }) = untouched s :=
    emit_untouched _ rfl
  obtain ⟨-, -, rfl⟩ | ⟨-, rfl⟩ := finishFrame_eq_next h
  · rw [endAttempt_untouched]
    exact hrx _
  · rw [endAttempt_untouched, emitFail, emit_untouched _ rfl]
    exact hrx _

theorem finishAttempt_untouched (h : finishAttempt s = .next t) : untouched t = untouched s := by
  unfold finishAttempt at h
  split_ifs at h
  · cases h
    exact failTruncated_untouched s
  · exact finishFrame_untouched h

/-! ### One action, and the run of an operation -/

/-- Every action but the encoder's. -/
theorem act_untouched (he : s.enc = none) (h : act s = .next t) : untouched t = untouched s := by
  cases hc : s.cp with
  | dOff =>
    rw [act_off he hc] at h
    cases h
    exact betweenAttempts_untouched s
  | dBegin =>
    rw [act_begin he hc] at h
    cases h
    split
    · rfl
    · exact testAvailable_untouched s
  | dLoop =>
    rw [act_loop he hc] at h
    cases h
    exact testDeadline_untouched s
  | dRead => exact readUnit_untouched (act_read he hc ▸ h)
  | dEof =>
    rw [act_eof he hc] at h
    cases h
    rfl
  | dFinish => exact finishAttempt_untouched (act_finish he hc ▸ h)

theorem act_untouchedBySender (h : act s = .next t) : untouchedBySender t = untouchedBySender s := by
  cases he : s.enc with
  | some r =>
    rw [act_sending he] at h
    cases h
    exact encodeTick_untouchedBySender r s
  | none => exact untouchedBySender_congr (act_untouched he h)

theorem refusePresented_untouched (m : EnvMove) (s : State) : untouched (refusePresented m s) = untouched s := by
  unfold refusePresented
  split
  · rfl
  · exact emit_untouched _ rfl

/-- An operation that sends no request, its encoder not running, writes nothing to the line. -/
theorem act_line (he : s.enc = none) (hop : isRequestOp s.curOp = false) (h : act s = .next t) :
    t.curOp = s.curOp ∧ t.enc = none ∧ t.txq = s.txq := by
  have hkept := act_untouched he h
  have hcur : t.curOp = s.curOp := (congrArg State.curOp hkept :)
  have henc : (if isRequestOp t.curOp then none else t.enc) = if isRequestOp s.curOp then none else s.enc :=
    (congrArg State.enc hkept :)
  have htxq : (if isRequestOp t.curOp then [] else t.txq) = if isRequestOp s.curOp then [] else s.txq :=
    (congrArg State.txq hkept :)
  rw [hcur, hop] at henc htxq
  exact ⟨hcur, henc.trans he, htxq⟩

end

end Sys2Proof.Machine
end

section
/-! SUPPORT. What a step and a command leave alone under an environment without reset (spec 10_state.md R30, R38, R39,
R43): the latch, TIMEOUT, TXP and the results of the other commands. -/

namespace Sys2Proof.Machine

open Sys2Proof.Safety

/-! ### The run of an operation -/

/-- The part of `untouched` that the environment leaves alone as well. -/
def untouchedByRun (s : State) : State := { untouchedBySender s with script := [] }

theorem untouchedByRun_congr {s t : State} (h : untouchedBySender t = untouchedBySender s) :
    untouchedByRun t = untouchedByRun s := by
  rw [untouchedByRun, h, untouchedByRun]

/-- What the block acts on in a step without reset. -/
def moved (s : State) : State := refusePresented (nextMove s) (environmentActs s)

theorem tick_of_not_rst {s : State} (h : (nextMove s).rst = false) : tick s = act (moved s) := by
  simp [tick, h, moved]

section
variable {s t : State}

/-- The result registers of the commands other than `op`, and what only SET_TIMEOUT and LOADP write, are unchanged. -/
structure KeepsOthers (op : Nibble) (s t : State) : Prop where
  query : op ≠ opQuery → t.qValue = s.qValue
  control : op ≠ opControl → t.cOk = s.cOk
  scan : op ≠ opScan → t.sDevtype = s.sDevtype
  revision : op ≠ opGetRevision → t.revA = s.revA ∧ t.revB = s.revB ∧ t.revC = s.revC ∧ t.revOk = s.revOk
  device : op ≠ opRecvReq → KeepsDevice s t
  channel : KeepsChannel s t

theorem nextMove_rst (h : NoReset s) : (nextMove s).rst = false := by
  unfold nextMove
  split
  · rfl
  · rename_i m rest hs
    exact h m (hs ▸ List.mem_cons_self)

theorem moved_untouched (s : State) : untouched (moved s) = { untouched s with script := s.script.tail } :=
  refusePresented_untouched _ _

/-- A step without reset takes one entry of the script, and keeps what the block's actions keep. -/
theorem tick_untouchedByRun (hr : (nextMove s).rst = false) (h : tick s = .next t) :
    untouchedByRun t = untouchedByRun s ∧ t.script = s.script.tail := by
  rw [tick_of_not_rst hr] at h
  have hact := act_untouchedBySender h
  have hmoved : untouchedBySender (moved s) = { untouchedBySender s with script := s.script.tail } := by
    rw [untouchedBySender, moved_untouched]
    rfl
  rw [hmoved] at hact
  have hscript := congrArg State.script hact
  refine ⟨?_, hscript⟩
  rw [untouchedByRun, hact]
  rfl

theorem noReset_tail (h : NoReset s) (ht : t.script = s.script.tail) : NoReset t := by
  intro m hm
  rw [ht] at hm
  exact h m (List.mem_of_mem_tail hm)

theorem runOperation_untouchedByRun (hr : NoReset s) (h : runOperation s = .next t) :
    untouchedByRun t = untouchedByRun s := by
  have hrun : NoReset t ∧ untouchedByRun t = untouchedByRun s := by
    refine runSteps_keeps (P := fun u => NoReset u ∧ untouchedByRun u = untouchedByRun s) ?_ _ ⟨hr, rfl⟩ h
    rintro u v ⟨hu, hkept⟩ - htick
    obtain ⟨hkept', hscript⟩ := tick_untouchedByRun (nextMove_rst hu) htick
    exact ⟨noReset_tail hu hscript, hkept'.trans hkept⟩
  exact hrun.2

/-! ### Reading the untouched part -/

theorem latch_of_untouchedByRun (h : untouchedByRun t = untouchedByRun s) :
    t.curOp = s.curOp ∧ t.opPort = s.opPort ∧ t.opA = s.opA ∧ t.opB = s.opB :=
  ⟨(congrArg State.curOp h :), (congrArg State.opPort h :), (congrArg State.opA h :), (congrArg State.opB h :)⟩

theorem timeout_of_untouchedByRun (h : untouchedByRun t = untouchedByRun s) : t.timeout = s.timeout :=
  (congrArg State.timeout h :)

theorem txp_of_untouchedByRun (h : untouchedByRun t = untouchedByRun s) : t.txp = s.txp :=
  (congrArg State.txp h :)

theorem channel_of_untouchedByRun (h : untouchedByRun t = untouchedByRun s) : KeepsChannel s t :=
  ⟨timeout_of_untouchedByRun h, (congrArg State.cfg h :), fun i =>
    byteAt_congr (congrArg (fun m => Memory.read m i) (txp_of_untouchedByRun h)) (congrArg State.epoch h :)⟩

/-- A field that is blanked out under `c` only, read where `c` fails. -/
theorem eq_of_blanked {α : Type} {c d : Prop} [Decidable c] [Decidable d] {x a b : α}
    (h : (if c then x else a) = if d then x else b) (hc : ¬ c) (hd : ¬ d) : a = b := by
  rwa [if_neg hc, if_neg hd] at h

theorem keepsOthers_of_untouchedByRun (h : untouchedByRun t = untouchedByRun s) : KeepsOthers s.curOp s t := by
  obtain ⟨hop, -⟩ := latch_of_untouchedByRun h
  have hne {x : Nibble} (hs : s.curOp ≠ x) : t.curOp ≠ x := hop ▸ hs
  exact {
    query := fun hs => eq_of_blanked (congrArg State.qValue h) (hne hs) hs
    control := fun hs => eq_of_blanked (congrArg State.cOk h) (hne hs) hs
    scan := fun hs => eq_of_blanked (congrArg State.sDevtype h) (hne hs) hs
    revision := fun hs => ⟨eq_of_blanked (congrArg State.revA h) (hne hs) hs,
      eq_of_blanked (congrArg State.revB h) (hne hs) hs, eq_of_blanked (congrArg State.revC h) (hne hs) hs,
      eq_of_blanked (congrArg State.revOk h) (hne hs) hs⟩
    device := fun hs => ⟨eq_of_blanked (congrArg State.reqOk h) (hne hs) hs,
      eq_of_blanked (congrArg State.reqPort h) (hne hs) hs, eq_of_blanked (congrArg State.reqRegister h) (hne hs) hs,
      eq_of_blanked (congrArg State.reqParameter h) (hne hs) hs⟩
    channel := channel_of_untouchedByRun h }

/-! ### Commands -/

theorem lowByte_toNat (a : Half) : (lowByte a).toNat = a.toNat % 256 := by
  simp [lowByte]

theorem firstAction_latch (s : State) :
    (firstAction s).curOp = s.curOp ∧ (firstAction s).opPort = s.opPort ∧ (firstAction s).opA = s.opA ∧
      (firstAction s).opB = s.opB := by
  unfold firstAction
  split_ifs <;> exact ⟨rfl, rfl, rfl, rfl⟩

@[simp] theorem firstAction_script (s : State) : (firstAction s).script = s.script := by
  unfold firstAction
  split_ifs <;> rfl

theorem firstAction_timeout (h : s.curOp ≠ opSetTimeout) : (firstAction s).timeout = s.timeout := by
  rw [firstAction, if_neg h]
  split_ifs <;> rfl

theorem firstAction_txp (h : s.curOp ≠ opLoadp) : (firstAction s).txp = s.txp := by
  unfold firstAction
  split_ifs <;> rfl

/-- The values of `op` in R101 are not reserved. -/
theorem isReservedOp_of_listed (op : Nibble) (hlow : 0x1 ≤ op.toNat) (hhigh : op.toNat ≤ 0xA) :
    isReservedOp op = false := by
  revert op
  decide

/-- The five tests of R243, none of them met. -/
theorem refuses_eq_false_iff {c : Params} {busy : Bool} {w : CmdWord} : refuses c busy w = false ↔
    busy = false ∧ cmdRsvd w = 0 ∧ isReservedOp (cmdOp w) = false ∧
      (cmdOp w = opSend → lengthOperand (cmdA w) ≤ c.maxPayload) ∧
      (cmdOp w = opLoadp → indexOperand (cmdA w) < c.maxPayload) := by
  simp [refuses, and_assoc]

/-- Settles O38: the first action and every later one keep the latch. -/
theorem acceptedCommandIsLatched : Obligations.AcceptedCommandIsLatched := by
  intro w s t hidle hreset hrsvd hlow hhigh hsend hload hexec
  have haccepted : refuses s.cfg s.busy w = false := by
    refine refuses_eq_false_iff.mpr ⟨hidle, hrsvd, isReservedOp_of_listed _ hlow hhigh, fun hop => ?_, fun hop => ?_⟩
    · rw [lengthOperand, lowByte_toNat]
      exact Nat.le_of_not_lt fun hlt => hsend ⟨hop, hlt⟩
    · rw [indexOperand, lowByte_toNat]
      exact Nat.lt_of_not_le fun hle => hload ⟨hop, hle⟩
  rw [exec_decodeCommand, perform_accepted haccepted] at hexec
  have hfirst : NoReset (firstAction (accept w s)) := by
    intro m hm
    rw [firstAction_script] at hm
    exact hreset m hm
  obtain ⟨hop, hport, ha, hb⟩ := latch_of_untouchedByRun (runOperation_untouchedByRun hfirst hexec)
  obtain ⟨hop', hport', ha', hb'⟩ := firstAction_latch (accept w s)
  exact ⟨hop.trans hop', hport.trans hport', ha.trans ha', hb.trans hb'⟩

/-- A command whose first action keeps what its later actions keep leaves the other commands' registers alone, whether
it is refused or runs. -/
theorem perform_keepsOthers {op : Nibble} {p : Byte} {a b : Half} {first : State → State} (hreset : NoReset s)
    (hfirst : ∀ u, u.curOp = op → untouched (first u) = untouched u)
    (h : perform (commandWord op 0 p a b) first s = .next t) : KeepsOthers op s t := by
  obtain ⟨-, rfl⟩ | ⟨-, h⟩ := perform_eq_next h
  · exact ⟨fun _ => rfl, fun _ => rfl, fun _ => rfl, fun _ => ⟨rfl, rfl, rfl, rfl⟩, fun _ => ⟨rfl, rfl, rfl, rfl⟩,
      rfl, rfl, fun _ => rfl⟩
  · have hop : (accept (commandWord op 0 p a b) s).curOp = op := cmdOp_commandWord ..
    have hkept := hfirst _ hop
    have hscript : (first (accept (commandWord op 0 p a b) s)).script = s.script := (congrArg State.script hkept :)
    have hrun := runOperation_untouchedByRun (s := first _) (fun m hm => hreset m (hscript ▸ hm)) h
    have hothers := keepsOthers_of_untouchedByRun
      (hrun.trans (untouchedByRun_congr (untouchedBySender_congr hkept)))
    rw [hop] at hothers
    exact ⟨hothers.query, hothers.control, hothers.scan, hothers.revision, hothers.device, hothers.channel⟩

/-- An operation that sends no request is in progress and has left the line as `q`. -/
structure LeavesLine (q : List LineUnit) (s : State) : Prop where
  noReset : NoReset s
  noRequest : isRequestOp s.curOp = false
  noFrame : s.enc = none
  line : s.txq = q

theorem tick_leavesLine {q : List LineUnit} (hs : LeavesLine q s) (h : tick s = .next t) : LeavesLine q t := by
  obtain ⟨hreset, hop, henc, hq⟩ := hs
  have hr := nextMove_rst hreset
  have hmoved : (moved s).curOp = s.curOp ∧ (moved s).enc = s.enc ∧ (moved s).txq = s.txq := by
    unfold moved refusePresented
    split <;> exact ⟨rfl, rfl, rfl⟩
  obtain ⟨hcur, hmenc, hmtxq⟩ := hmoved
  obtain ⟨-, hscript⟩ := tick_untouchedByRun hr h
  rw [tick_of_not_rst hr] at h
  obtain ⟨htcur, htenc, htxq⟩ := act_line (hmenc.trans henc) (hcur ▸ hop) h
  exact ⟨noReset_tail hreset hscript, by rw [htcur, hcur, hop], htenc, htxq.trans (hmtxq.trans hq)⟩

/-- RECV_REQ and RECEIVE send nothing. -/
theorem perform_startAttempt_txq {op : Nibble} {p : Byte} {a b : Half} (hop : isRequestOp op = false)
    (henc : s.enc = none) (hreset : NoReset s)
    (h : perform (commandWord op 0 p a b) startAttempt s = .next t) : t.txq = s.txq := by
  obtain ⟨-, rfl⟩ | ⟨-, h⟩ := perform_eq_next h
  · rfl
  · have hcur : (startAttempt (accept (commandWord op 0 p a b) s)).curOp = op := cmdOp_commandWord ..
    have hfirst : LeavesLine s.txq (startAttempt (accept (commandWord op 0 p a b) s)) :=
      ⟨hreset, hcur.symm ▸ hop, henc, rfl⟩
    exact (runSteps_keeps (fun _ _ hu _ htick => tick_leavesLine hu htick) _ hfirst h).line

/-- Settles O39: each command's first action, and every action after it, keeps the registers of the others. -/
theorem commandsKeepOtherRegisters : Obligations.CommandsKeepOtherRegisters := by
  intro p a b s t hreset henc
  have hrequest {op : Nibble} (hop : isRequestOp op = true) (u : State) (hu : u.curOp = op) :
      isRequestOp u.curOp = true := hu ▸ hop
  refine ⟨fun h => ?_, fun h => ?_, fun h => ?_, fun h => ?_, fun h => ?_, fun h => ?_⟩
  · have hk := perform_keepsOthers hreset (fun u hu => startRequest_untouched _ _ _ (hrequest rfl u hu)) h
    exact ⟨hk.device (by decide), hk.channel, hk.control (by decide), hk.scan (by decide), hk.revision (by decide)⟩
  · have hk := perform_keepsOthers hreset (fun u hu => startRequest_untouched _ _ _ (hrequest rfl u hu)) h
    exact ⟨hk.device (by decide), hk.channel, hk.query (by decide), hk.scan (by decide), hk.revision (by decide)⟩
  · have hk := perform_keepsOthers hreset (fun u hu => startRequest_untouched _ _ _ (hrequest rfl u hu)) h
    exact ⟨hk.device (by decide), hk.channel, hk.query (by decide), hk.control (by decide), hk.revision (by decide)⟩
  · have hk := perform_keepsOthers hreset (fun u hu => startSubQuery_untouched 0 (hrequest rfl u hu)) h
    exact ⟨hk.device (by decide), hk.channel, hk.query (by decide), hk.control (by decide), hk.scan (by decide)⟩
  · have hk := perform_keepsOthers (first := startAttempt) hreset (fun _ _ => rfl) h
    exact ⟨⟨hk.query (by decide), hk.control (by decide), hk.scan (by decide), hk.revision (by decide)⟩, hk.channel,
      perform_startAttempt_txq rfl henc hreset h⟩
  · have hk := perform_keepsOthers (first := startAttempt) hreset (fun _ _ => rfl) h
    exact ⟨⟨hk.query (by decide), hk.control (by decide), hk.scan (by decide), hk.revision (by decide)⟩,
      hk.device (by decide), hk.channel, perform_startAttempt_txq rfl henc hreset h⟩

/-! ### A step -/

/-- A command changes of TIMEOUT and TXP only what its first action does. -/
theorem perform_firstAction_untouched {w : CmdWord} (hreset : NoReset s) (h : perform w firstAction s = .next t) :
    (t.timeout = s.timeout ∧ t.txp = s.txp) ∨
    (refuses s.cfg s.busy w = false ∧ t.timeout = (firstAction (accept w s)).timeout ∧
      t.txp = (firstAction (accept w s)).txp) := by
  obtain ⟨-, rfl⟩ | ⟨hr, h⟩ := perform_eq_next h
  · exact .inl ⟨rfl, rfl⟩
  · have hrun := runOperation_untouchedByRun (fun m hm => hreset m (by rwa [firstAction_script] at hm)) h
    exact .inr ⟨hr, timeout_of_untouchedByRun hrun, txp_of_untouchedByRun hrun⟩

theorem rsvd_of_accepted {c : Params} {busy : Bool} {w : CmdWord} (h : refuses c busy w = false) : cmdRsvd w = 0 := by
  obtain ⟨-, hr, -⟩ := refuses_eq_false_iff.mp h
  exact hr

/-- An accepted word of SET_TIMEOUT is a SET_TIMEOUT. -/
theorem decodeCommand_setTimeout {w : CmdWord} (hr : cmdRsvd w = 0) (ho : cmdOp w = opSetTimeout) :
    decodeCommand w = .setTimeout (cmdPort w) (cmdA w) (cmdB w) := by
  simp [decodeCommand, hr, ho, opSetTimeout]

theorem decodeCommand_loadp {w : CmdWord} (hr : cmdRsvd w = 0) (ho : cmdOp w = opLoadp) :
    decodeCommand w = .loadp (cmdPort w) (cmdA w) (cmdB w) := by
  simp [decodeCommand, hr, ho, opSetTimeout, opQuery, opControl, opScan, opGetRevision, opRecvReq, opSendRsp, opSend,
    opReceive, opLoadp]

/-- Settles O57: a busy block's action writes neither; an accepted command that does has the one `op` whose first
action does. -/
theorem timeoutAndTxpHaveOneWriter : Obligations.TimeoutAndTxpHaveOneWriter := by
  intro s t hreset h
  obtain ⟨-, hstep⟩ | ⟨-, hr, -⟩ | ⟨-, -, hstep⟩ | ⟨-, -, w, q, hfetch, hstep⟩ := step_cases_idle s
  · obtain ⟨hkept, -⟩ := tick_untouchedByRun (nextMove_rst hreset) (hstep ▸ h)
    exact ⟨fun hne => absurd (timeout_of_untouchedByRun hkept) hne,
      fun hne => absurd (txp_of_untouchedByRun hkept) hne⟩
  · rw [nextMove_rst hreset] at hr
    cases hr
  · rw [hstep] at h
    cases h
    exact ⟨fun hne => absurd rfl hne, fun hne => absurd rfl hne⟩
  · rw [hstep] at h
    have hreset' : NoReset { environmentActs s with hostq := q } := noReset_tail hreset rfl
    rw [hfetch]
    obtain ⟨htimeout, htxp⟩ | ⟨hacc, htimeout, htxp⟩ := perform_firstAction_untouched hreset' h
    · exact ⟨fun hne => absurd htimeout hne, fun hne => absurd htxp hne⟩
    · have hrsvd := rsvd_of_accepted hacc
      constructor
      · intro hne
        have hop : cmdOp w = opSetTimeout := by_contra fun hop => hne (htimeout.trans (firstAction_timeout hop))
        exact ⟨_, _, _, _, by rw [decodeCommand_setTimeout hrsvd hop]⟩
      · intro hne
        have hop : cmdOp w = opLoadp := by_contra fun hop => hne (htxp.trans (firstAction_txp hop))
        exact ⟨_, _, _, _, by rw [decodeCommand_loadp hrsvd hop]⟩

end

end Sys2Proof.Machine
end

section
/-! SUPPORT. Output is written and never read (spec 10_state.md R51, R53, 41_encode.md R135): every function of the block
commutes with putting earlier output before what the state holds, in the order of the definitions. -/

namespace Sys2Proof.Machine

open Sys2Proof.Safety

/-! ### Functions that do not read output back -/

/-- The function answers the same whatever was output before, and only adds to it. -/
def OutputBlind (f : State → State) : Prop :=
  ∀ l u n s, f (withEarlierOutput l u n s) = withEarlierOutput l u n (f s)

/-- The same of a function that may stop. -/
def OutputBlindOut (f : State → Out) : Prop :=
  ∀ l u n s, f (withEarlierOutput l u n s) = mapNext (withEarlierOutput l u n) (f s)

section
variable {f g : State → State} {φ ψ : State → Out} {c : State → Prop} [∀ s, Decidable (c s)]

theorem OutputBlind.comp (hf : OutputBlind f) (hg : OutputBlind g) : OutputBlind fun s => f (g s) := by
  intro l u n s
  exact (congrArg f (hg l u n s)).trans (hf l u n (g s))

theorem OutputBlind.ite (hc : ∀ l u n s, c (withEarlierOutput l u n s) = c s) (hf : OutputBlind f)
    (hg : OutputBlind g) : OutputBlind fun s => if c s then f s else g s := by
  intro l u n s
  simp only [hc]
  split
  · exact hf l u n s
  · exact hg l u n s

theorem OutputBlindOut.next (hf : OutputBlind f) : OutputBlindOut fun s => .next (f s) := by
  intro l u n s
  exact congrArg Host.Outcome.next (hf l u n s)

theorem OutputBlindOut.comp (hφ : OutputBlindOut φ) (hg : OutputBlind g) : OutputBlindOut fun s => φ (g s) := by
  intro l u n s
  exact (congrArg φ (hg l u n s)).trans (hφ l u n (g s))

theorem OutputBlindOut.andThen (hφ : OutputBlindOut φ) (hψ : OutputBlindOut ψ) :
    OutputBlindOut fun s => andThen (φ s) ψ := by
  intro l u n s
  simp only [hφ l u n s]
  cases φ s with
  | next t => exact hψ l u n t
  | fault r => rfl
  | refused r => rfl

theorem OutputBlindOut.ite (hc : ∀ l u n s, c (withEarlierOutput l u n s) = c s) (hφ : OutputBlindOut φ)
    (hψ : OutputBlindOut ψ) : OutputBlindOut fun s => if c s then φ s else ψ s := by
  intro l u n s
  simp only [hc]
  split
  · exact hφ l u n s
  · exact hψ l u n s

end

/-! ### The output primitives and the encoder -/

theorem emit_outputBlind (e : DiagEvent) : OutputBlind (emit e) := by
  intro l u n s
  simp [emit, withEarlierOutput]

theorem writeUnit_outputBlind (x : LineUnit) : OutputBlind (writeUnit x) := by
  intro l u n s
  simp [writeUnit, withEarlierOutput]

theorem refuse_outputBlind (w : CmdWord) : OutputBlind (refuse w) :=
  (emit_outputBlind _).comp fun _ _ _ _ => rfl

theorem endOp_outputBlind : OutputBlind endOp := fun _ _ _ _ => rfl

theorem raiseKind_outputBlind (k : Kind) : OutputBlind (raiseKind k) := fun _ _ _ _ => rfl

theorem frameSent_outputBlind : OutputBlind frameSent :=
  .ite (fun _ _ _ _ => rfl) (fun _ _ _ _ => rfl) endOp_outputBlind

theorem encodeTick_outputBlind (r : EncRun) : OutputBlind (encodeTick r) := by
  unfold encodeTick
  cases r.stage with
  | checksumLow =>
    exact frameSent_outputBlind.comp ((emit_outputBlind _).comp ((writeUnit_outputBlind _).comp fun _ _ _ _ => rfl))
  | _ => exact (writeUnit_outputBlind _).comp fun _ _ _ _ => rfl

/-! ### The controller -/

theorem queryResult_outputBlind (r : Resolution) : OutputBlind (queryResult r) := by
  cases r <;> exact fun _ _ _ _ => rfl

theorem controlResult_outputBlind (r : Resolution) : OutputBlind (controlResult r) := by
  cases r <;> exact fun _ _ _ _ => rfl

theorem scanResult_outputBlind (r : Resolution) : OutputBlind (scanResult r) := by
  cases r with
  | success v =>
    intro l u n s
    have hcfg : (withEarlierOutput l u n s).cfg = s.cfg := rfl
    simp only [scanResult, hcfg]
    split
    · rfl
    · exact (endOp_outputBlind.comp (emit_outputBlind _)) l u n { s with sDevtype := 0 }
  | _ => exact fun _ _ _ _ => rfl

theorem startSubQuery_outputBlind (i : Fin 3) : OutputBlind (startSubQuery i) := fun _ _ _ _ => rfl

theorem setVal_outputBlind (i : Fin 3) (v : Half) : OutputBlind (setVal i v) := by
  unfold setVal
  split <;> exact fun _ _ _ _ => rfl

theorem revisionResult_outputBlind (r : Resolution) : OutputBlind (revisionResult r) := by
  cases r with
  | success v =>
    intro l u n s
    have hidx : (withEarlierOutput l u n s).revIdx = s.revIdx := rfl
    simp only [revisionResult, hidx]
    split
    · exact ((startSubQuery_outputBlind 1).comp (setVal_outputBlind 0 v)) l u n s
    · exact ((startSubQuery_outputBlind 2).comp (setVal_outputBlind 1 v)) l u n s
    · rfl
  | _ => exact fun _ _ _ _ => rfl

theorem commandResult_outputBlind (r : Resolution) : OutputBlind (commandResult r) :=
  .ite (fun _ _ _ _ => rfl) (queryResult_outputBlind r) <|
    .ite (fun _ _ _ _ => rfl) (controlResult_outputBlind r) <|
      .ite (fun _ _ _ _ => rfl) (scanResult_outputBlind r) (revisionResult_outputBlind r)

theorem concludeRequest_outputBlind (r : Resolution) : OutputBlind (concludeRequest r) :=
  (commandResult_outputBlind r).comp (g := fun s => { s with ctl := .idle }) fun _ _ _ _ => rfl

theorem resolveOk_outputBlind : OutputBlind resolveOk := by
  refine .ite (fun _ _ _ _ => rfl) ?_ ?_
  · exact fun l u n s => concludeRequest_outputBlind (.success (be16Unpack (byteAt s .rxp 0) (byteAt s .rxp 1))) l u n s
  · intro l u n s
    exact ((concludeRequest_outputBlind .badLength).comp (emit_outputBlind (.fail .badLength (s.rxLen.setWidth 16))))
      l u n s

theorem requestOutcome_outputBlind (k : Kind) : OutputBlind (requestOutcome k) := by
  cases k with
  | noData => exact fun _ _ _ _ => rfl
  | ok => exact resolveOk_outputBlind
  | _ => exact concludeRequest_outputBlind _

theorem pollDeadline_outputBlind : OutputBlind pollDeadline :=
  .ite (fun _ _ _ _ => rfl) ((concludeRequest_outputBlind _).comp (emit_outputBlind _)) fun _ _ _ _ => rfl

theorem controllerTick_outputBlind : OutputBlind controllerTick := by
  intro l u n s
  have hctl : (withEarlierOutput l u n s).ctl = s.ctl := rfl
  cases hs : s.ctl with
  | idle => simp only [controllerTick, hctl, hs]; rfl
  | sent => simpa only [controllerTick, hctl, hs] using pollDeadline_outputBlind l u n s
  | resolved r =>
    simp only [controllerTick, leaveResolved, hctl, hs]
    exact commandResult_outputBlind r l u n { s with ctl := .idle }

theorem betweenAttempts_outputBlind : OutputBlind betweenAttempts :=
  .ite (fun _ _ _ _ => rfl) controllerTick_outputBlind endOp_outputBlind

/-! ### The decode machine -/

theorem recvReqResult_outputBlind (k : Kind) : OutputBlind (recvReqResult k) := by
  refine .ite (fun _ _ _ _ => rfl) (.ite (fun _ _ _ _ => rfl) (fun _ _ _ _ => rfl) ?_) fun _ _ _ _ => rfl
  intro l u n s
  exact (endOp_outputBlind.comp (emit_outputBlind (.fail .badLength (s.rxLen.setWidth 16))))
    l u n { s with reqOk := false }

theorem endAttempt_outputBlind (k : Kind) : OutputBlind (endAttempt k) := by
  have hdeliver : OutputBlind (deliver k) :=
    .ite (fun _ _ _ _ => rfl) (requestOutcome_outputBlind k) <|
      .ite (fun _ _ _ _ => rfl) (recvReqResult_outputBlind k) endOp_outputBlind
  exact hdeliver.comp (raiseKind_outputBlind k)

theorem testAvailable_outputBlind : OutputBlind testAvailable :=
  .ite (fun _ _ _ _ => rfl) (endAttempt_outputBlind _) fun _ _ _ _ => rfl

theorem testDeadline_outputBlind : OutputBlind testDeadline :=
  .ite (fun _ _ _ _ => rfl)
    ((endAttempt_outputBlind _).comp ((emit_outputBlind _).comp (g := fun s => { s with cursor := 0 })
      fun _ _ _ _ => rfl))
    fun _ _ _ _ => rfl

theorem failTruncated_outputBlind : OutputBlind failTruncated := fun l u n s =>
  ((endAttempt_outputBlind .truncated).comp (emit_outputBlind (.fail .truncated (s.cursor.setWidth 16))))
    l u n { s with cursor := 0 }

theorem storeBuf_outputBlind (i : Nat) (b : Byte) : OutputBlindOut (storeBuf i b) :=
  .ite (fun _ _ _ _ => rfl) (.next fun _ _ _ _ => rfl) fun _ _ _ _ => rfl

theorem storeStart_outputBlind (b : Byte) : OutputBlindOut (storeStart b) := by
  have hresync : OutputBlind fun s => if s.cursor = 0 then s else emit (.resync s.cursor) s :=
    .ite (fun _ _ _ _ => rfl) (fun _ _ _ _ => rfl) fun l u n s => emit_outputBlind (.resync s.cursor) l u n s
  exact .andThen ((storeBuf_outputBlind 0 b).comp hresync) (.next fun _ _ _ _ => rfl)

theorem storeData_outputBlind (b : Byte) : OutputBlindOut (storeData b) := by
  refine .ite (fun _ _ _ _ => rfl) (.next ?_) ?_
  · exact (endAttempt_outputBlind _).comp ((emit_outputBlind _).comp (g := fun s => { s with cursor := 0 })
      fun _ _ _ _ => rfl)
  · refine .andThen ?_ (.next fun _ _ _ _ => rfl)
    exact fun l u n s => storeBuf_outputBlind s.cursor.toNat b l u n s

theorem storeUnit_outputBlind (x : LineUnit) : OutputBlindOut (storeUnit x) :=
  .ite (fun _ _ _ _ => rfl) (storeStart_outputBlind _) (storeData_outputBlind _)

theorem readUnit_outputBlind : OutputBlindOut readUnit := by
  intro l u n s
  cases hq : s.rxq with
  | nil =>
    rw [readUnit_nil hq, readUnit_nil (s := withEarlierOutput l u n s) hq]
    rfl
  | cons x rest =>
    rw [readUnit_cons hq, readUnit_cons (s := withEarlierOutput l u n s) hq]
    exact storeUnit_outputBlind x l u n { s with rxq := rest }

theorem latchFrame_outputBlind (p : Byte) (d : List Byte) : OutputBlindOut (latchFrame p d) :=
  .ite (fun _ _ _ _ => rfl) (.next fun _ _ _ _ => rfl) fun _ _ _ _ => rfl

theorem finishFrame_outputBlind (p : Byte) (d : List Byte) (ck : Half) : OutputBlindOut (finishFrame p d ck) := by
  have hrx (e : DiagEvent) : OutputBlind fun s => emit e { s with cursor := 0 } :=
    (emit_outputBlind e).comp fun _ _ _ _ => rfl
  refine .ite (fun _ _ _ _ => rfl) (.andThen ((latchFrame_outputBlind p d).comp (hrx _)) ?_) (.next ?_)
  · exact .next (endAttempt_outputBlind .ok)
  · exact (endAttempt_outputBlind _).comp ((emit_outputBlind _).comp (hrx _))

theorem finishAttempt_outputBlind : OutputBlindOut finishAttempt := by
  refine .ite (fun _ _ _ _ => rfl) (fun _ _ _ _ => rfl) (.ite (fun _ _ _ _ => rfl) ?_ ?_)
  · exact .next failTruncated_outputBlind
  · exact fun l u n s => finishFrame_outputBlind (byteAt s .buf 0) (bytesAt s .buf 1 (s.cursor.toNat - 3))
      (be16Unpack (byteAt s .buf (s.cursor.toNat - 2)) (byteAt s .buf (s.cursor.toNat - 1))) l u n s

/-! ### One action, the run of an operation, and the step -/

theorem act_outputBlind : OutputBlindOut act := by
  intro l u n s
  cases he : s.enc with
  | some r =>
    rw [act_sending he, act_sending (s := withEarlierOutput l u n s) he]
    exact OutputBlindOut.next (encodeTick_outputBlind r) l u n s
  | none =>
    have he' : (withEarlierOutput l u n s).enc = none := he
    cases hc : s.cp with
    | dOff =>
      rw [act_off he hc, act_off he' hc]
      exact OutputBlindOut.next betweenAttempts_outputBlind l u n s
    | dBegin =>
      have hbegin : OutputBlind fun s => if s.s1Seen = true then recordStart s else testAvailable s :=
        .ite (fun _ _ _ _ => rfl) (fun _ _ _ _ => rfl) testAvailable_outputBlind
      rw [act_begin he hc, act_begin he' hc]
      exact OutputBlindOut.next hbegin l u n s
    | dLoop =>
      rw [act_loop he hc, act_loop he' hc]
      exact OutputBlindOut.next testDeadline_outputBlind l u n s
    | dRead =>
      rw [act_read he hc, act_read he' hc]
      exact readUnit_outputBlind l u n s
    | dEof =>
      rw [act_eof he hc, act_eof he' hc]
      rfl
    | dFinish =>
      rw [act_finish he hc, act_finish he' hc]
      exact finishAttempt_outputBlind l u n s

theorem refusePresented_outputBlind (m : EnvMove) : OutputBlind (refusePresented m) := by
  unfold refusePresented
  cases m.present with
  | none => exact fun _ _ _ _ => rfl
  | some w => exact refuse_outputBlind w

theorem environmentActs_outputBlind : OutputBlind environmentActs := fun _ _ _ _ => rfl

theorem tick_outputBlind : OutputBlindOut tick := by
  refine .ite (fun _ _ _ _ => rfl) (.next fun _ _ _ _ => rfl) ?_
  intro l u n s
  exact (act_outputBlind.comp ((refusePresented_outputBlind (nextMove s)).comp environmentActs_outputBlind)) l u n s

theorem runSteps_outputBlind (k : Nat) : OutputBlindOut (runSteps k) := by
  induction k with
  | zero => exact fun _ _ _ _ => rfl
  | succ k ih => exact .ite (fun _ _ _ _ => rfl) (fun _ _ _ _ => rfl) (tick_outputBlind.andThen ih)

theorem firstAction_outputBlind : OutputBlind firstAction := by
  intro l u n s
  have hop : (withEarlierOutput l u n s).curOp = s.curOp := rfl
  simp only [firstAction, hop]
  split_ifs <;> rfl

theorem perform_firstAction_outputBlind (w : CmdWord) : OutputBlindOut (perform w firstAction) := by
  refine .ite (fun _ _ _ _ => rfl) (.next (refuse_outputBlind w)) ?_
  have hrun : OutputBlindOut runOperation := fun l u n s => runSteps_outputBlind (stepBound s) l u n s
  exact hrun.comp (firstAction_outputBlind.comp fun _ _ _ _ => rfl)

theorem fetchCommand_run_outputBlind (m : EnvMove) : OutputBlindOut fun s => (fetchCommand m s).run := by
  intro l u n s
  cases hp : m.present with
  | some w =>
    simp only [fetchCommand, hp, Fetched.run, exec_decodeCommand]
    exact perform_firstAction_outputBlind w l u n s
  | none =>
    have hhost : (withEarlierOutput l u n s).hostq = s.hostq := rfl
    cases hq : s.hostq with
    | nil =>
      simp only [fetchCommand, hp, hhost, hq]
      rfl
    | cons w rest =>
      simp only [fetchCommand, hp, hhost, hq, Fetched.run, exec_decodeCommand]
      exact perform_firstAction_outputBlind w l u n { s with hostq := rest }

/-- Settles O56: by whether the block is busy, a step is its action, a reset, or what it fetches as a command. -/
theorem outputIsNeverReadBack : Obligations.OutputIsNeverReadBack := by
  intro s l u n
  cases hb : s.busy with
  | true =>
    rw [step_of_busy hb, step_of_busy (s := withEarlierOutput l u n s) hb]
    exact tick_outputBlind l u n s
  | false =>
    cases hr : (nextMove s).rst with
    | true =>
      rw [step_of_rst hr, step_of_rst (s := withEarlierOutput l u n s) hr]
      rfl
    | false =>
      rw [step_eq_run hr, step_eq_run (s := withEarlierOutput l u n s) hr, fetch_of_idle hb,
        fetch_of_idle (s := withEarlierOutput l u n s) hb]
      exact fetchCommand_run_outputBlind (nextMove s) l u n (environmentActs s)

/-! ### The events of a step -/

/-- The events outside R262 that the log holds. -/
def unlistedEvents (s : State) : List DiagEvent := s.diagLog.filter fun e => !isListed e

theorem unlistedEvents_of_untouchedBySender {s t : State} (h : untouchedBySender t = untouchedBySender s) :
    unlistedEvents t = unlistedEvents s :=
  (congrArg State.diagLog h :)

theorem refuse_unlistedEvents (w : CmdWord) (s : State) : unlistedEvents (refuse w s) = unlistedEvents s :=
  unlistedEvents_of_untouchedBySender (untouchedBySender_congr (emit_untouched _ rfl))

theorem tick_unlistedEvents {s t : State} (h : tick s = .next t) : unlistedEvents t = unlistedEvents s := by
  obtain ⟨-, htick⟩ | ⟨-, htick⟩ := tick_cases s <;> rw [htick] at h
  · cases h
    rfl
  · have hact := unlistedEvents_of_untouchedBySender (act_untouchedBySender h)
    have hmoved := unlistedEvents_of_untouchedBySender
      (untouchedBySender_congr (refusePresented_untouched (nextMove s) (environmentActs s)))
    exact hact.trans hmoved

theorem firstAction_unlistedEvents (s : State) : unlistedEvents (firstAction s) = unlistedEvents s := by
  unfold firstAction
  split_ifs <;> rfl

theorem perform_unlistedEvents {w : CmdWord} {s t : State} (h : perform w firstAction s = .next t) :
    unlistedEvents t = unlistedEvents s := by
  obtain ⟨-, rfl⟩ | ⟨-, h⟩ := perform_eq_next h
  · exact refuse_unlistedEvents w s
  · have hfirst : unlistedEvents (firstAction (accept w s)) = unlistedEvents s := firstAction_unlistedEvents _
    exact runSteps_keeps (P := fun u => unlistedEvents u = unlistedEvents s)
      (fun _ _ hu _ htick => (tick_unlistedEvents htick).trans hu) _ hfirst h

/-- No step, reset included, emits an event outside R262. -/
theorem step_unlistedEvents {s t : State} (h : step s = .next t) : unlistedEvents t = unlistedEvents s := by
  obtain ⟨-, hstep⟩ | ⟨-, -, hstep⟩ | ⟨-, -, hstep⟩ | ⟨-, -, w, q, -, hstep⟩ := step_cases_idle s <;> rw [hstep] at h
  · exact tick_unlistedEvents h
  · cases h
    rfl
  · cases h
    rfl
  · exact (perform_unlistedEvents h).trans rfl

/-- A step adds to the log what it would have put into an empty one. -/
theorem step_diagLog {s t : State} (h : step s = .next t) :
    ∃ t', step { s with diagLog := [] } = .next t' ∧ t.diagLog = s.diagLog ++ t'.diagLog := by
  have hs : s = withEarlierOutput s.diagLog [] 0 { s with diagLog := [] } := by simp [withEarlierOutput]
  rw [hs, outputIsNeverReadBack] at h
  cases hstep : step { s with diagLog := [] } with
  | next t' =>
    rw [hstep] at h
    cases h
    exact ⟨t', rfl, rfl⟩
  | fault r => rw [hstep] at h; cases h
  | refused r => rw [hstep] at h; cases h

theorem diagCode_of_isListed {e : DiagEvent} (h : isListed e = true) :
    2 ≤ (diagCode e).toNat ∧ (diagCode e).toNat ≤ 11 := by
  cases e with
  | fail k d =>
    revert h
    cases k <;> simp [isListed, diagCode, kindCode]
  | _ => simp [diagCode]

theorem kind_of_isListed {k : Kind} {d : Half} (h : isListed (.fail k d) = true) :
    k ∈ [Kind.truncated, .overflow, .checksumMismatch, .unresolvedDeviceType, .badLength] := by
  simpa [isListed, or_assoc] using h

/-- Settles O60: the table by its rows; the step from an empty log leaves it without an unlisted event. -/
theorem stepEmitsTheListedEvents : Obligations.StepEmitsTheListedEvents := by
  refine ⟨⟨rfl, rfl, fun _ => ⟨rfl, rfl⟩, fun _ => ⟨rfl, rfl⟩, fun _ => ⟨rfl, rfl⟩, fun _ => ⟨rfl, rfl⟩,
    fun _ => ⟨rfl, rfl⟩, fun _ => ⟨rfl, rfl⟩, fun k => ⟨rfl, ?_⟩, fun _ _ _ => ⟨rfl, rfl⟩, fun _ _ _ => ⟨rfl, rfl⟩⟩, ?_⟩
  · have hk := k.isLt
    simp only [diagData, BitVec.toNat_setWidth]
    omega
  · intro s t h
    obtain ⟨t', hstep, hlog⟩ := step_diagLog h
    have hnone : unlistedEvents t' = [] := step_unlistedEvents hstep
    have hlisted : ∀ e ∈ t'.diagLog, isListed e = true := by simpa [unlistedEvents] using hnone
    exact ⟨t'.diagLog, hlog, fun e he => diagCode_of_isListed (hlisted e he),
      fun k d he => kind_of_isListed (hlisted _ he)⟩

end Sys2Proof.Machine
end

section
/-! SUPPORT. Every step keeps the invariant of the block (spec 10_state.md R22 to R31, 42_decode.md R164,
60_exceptions.md R245): one lemma per function of the block, from the end of an operation up to the step. -/

namespace Sys2Proof.Safety

open Sys2Proof.Machine

/-! ### What the invariant reads -/

/-- The state with every field that the invariant does not read blanked out. -/
def invView (s : State) : State :=
  { s with
    rxPort := 0
    qValue := 0
    cOk := false
    sDevtype := 0
    revA := 0
    revB := 0
    revC := 0
    revOk := false
    revIdx := 0
    val0 := 0
    val1 := 0
    val2 := 0
    reqOk := false
    reqPort := 0
    reqRegister := 0
    reqParameter := 0
    opPort := 0
    opA := 0
    opB := 0
    txq := []
    diagLog := []
    refusedPulses := 0
    script := []
    hostq := []
    epoch := 0 }

theorem blockInv_invView {s : State} : BlockInv (invView s) ↔ BlockInv s := by
  constructor <;>
  · rintro ⟨hp, ⟨c1, c2, c3, c4⟩, ⟨a1, a2, a3, a4, a5, a6⟩, ⟨d1, d2, d3, d4, d5, d6, d7, d8⟩,
      ⟨o1, o2, o3, o4, o5, o6, o7⟩, ⟨r1, r2⟩⟩
    exact ⟨hp, ⟨c1, c2, c3, c4⟩, ⟨a1, a2, a3, a4, a5, a6⟩, ⟨d1, d2, d3, d4, d5, d6, d7, d8⟩,
      ⟨o1, o2, o3, o4, o5, o6, o7⟩, ⟨r1, r2⟩⟩

/-- Writing outputs, results, operands or the environment's lists keeps the invariant. -/
theorem BlockInv.of_view {s t : State} (h : BlockInv s) (hview : invView t = invView s) : BlockInv t :=
  blockInv_invView.mp (hview ▸ blockInv_invView.mpr h)

/-- The state with every field but the clock registers blanked out. -/
def clocksView (s : State) : State :=
  { State.resetOf s.cfg with timeout := s.timeout, now := s.now, tStart := s.tStart, tReq := s.tReq }

theorem ClocksFit.of_view {s t : State} (h : ClocksFit s) (hview : clocksView t = clocksView s) : ClocksFit t := by
  have hiff (u : State) : ClocksFit (clocksView u) ↔ ClocksFit u := by
    constructor <;> exact fun ⟨hout, hnow, hstart, hreq⟩ => ⟨hout, hnow, hstart, hreq⟩
  exact (hiff t).mp (hview ▸ (hiff s).mpr h)

/-- The state with every field but the byte arrays blanked out. -/
def arraysView (s : State) : State :=
  { State.resetOf s.cfg with buf := s.buf, txp := s.txp, rxp := s.rxp }

theorem ArraysFit.of_view {s t : State} (h : ArraysFit s) (hview : arraysView t = arraysView s) : ArraysFit t := by
  have hiff (u : State) : ArraysFit (arraysView u) ↔ ArraysFit u := by
    constructor <;> exact fun ⟨hbuf, htxp, hrxp, hbufr, htxpr, hrxpr⟩ => ⟨hbuf, htxp, hrxp, hbufr, htxpr, hrxpr⟩
  exact (hiff t).mp (hview ▸ (hiff s).mpr h)

/-- The kinds an attempt can end in (R25). -/
def IsOutcome (k : Kind) : Prop :=
  k = .ok ∨ k = .noData ∨ k = .timeout ∨ k = .truncated ∨ k = .overflow ∨ k = .checksumMismatch

/-- Nothing is collected, S1 is not pending and no frame is being sent. -/
structure Emptied (s : State) : Prop where
  params : s.cfg.Valid
  clocks : ClocksFit s
  arrays : ArraysFit s
  len : s.rxLen.toNat ≤ s.cfg.maxPayload
  empty : s.cursor = 0
  noS1 : s.s1Seen = false
  noFrame : s.enc = none

/-- The state with every field that `Emptied` does not read blanked out. -/
def emptiedView (s : State) : State :=
  { invView s with cp := .dOff, rxKind := .ok, ctl := .idle, busy := false, curOp := 0, rxq := [] }

theorem emptied_emptiedView {s : State} : Emptied (emptiedView s) ↔ Emptied s := by
  constructor <;>
  · rintro ⟨hp, ⟨c1, c2, c3, c4⟩, ⟨a1, a2, a3, a4, a5, a6⟩, hlen, hempty, hs1, henc⟩
    exact ⟨hp, ⟨c1, c2, c3, c4⟩, ⟨a1, a2, a3, a4, a5, a6⟩, hlen, hempty, hs1, henc⟩

theorem Emptied.of_view {s t : State} (h : Emptied s) (hview : emptiedView t = emptiedView s) : Emptied t :=
  emptied_emptiedView.mp (hview ▸ emptied_emptiedView.mpr h)

/-- No attempt and no frame is in progress: between two attempts, or outside an operation. -/
structure Settled (s : State) : Prop extends Emptied s where
  off : s.cp = .dOff
  kind : IsOutcome s.rxKind

theorem Settled.of_view {s t : State} (h : Settled s) (hview : emptiedView t = emptiedView s) (hcp : t.cp = s.cp)
    (hkind : t.rxKind = s.rxKind) : Settled t :=
  ⟨h.toEmptied.of_view hview, hcp ▸ h.off, hkind ▸ h.kind⟩

/-- Who runs the attempt in progress: a request in its wait loop, RECV_REQ or RECEIVE. -/
def AttemptOwner (s : State) : Prop :=
  (isRequestOp s.curOp = true ∧ s.ctl = .sent) ∨ ((s.curOp = opRecvReq ∨ s.curOp = opReceive) ∧ s.ctl = .idle)

section
variable {s t : State}

theorem decodeFits_of_off (hoff : s.cp = .dOff) (hempty : s.cursor = 0) (hs1 : s.s1Seen = false) : DecodeFits s := by
  constructor <;> simp [hoff, hempty, hs1]

/-- A state without attempt and frame has the invariant when its operation fits. -/
theorem Settled.blockInv (h : Settled s) (hop : OperationFits s) : BlockInv s :=
  ⟨h.params, h.clocks, h.arrays, decodeFits_of_off h.off h.empty h.noS1, hop, h.kind, h.len⟩

/-- A quiescent block. -/
theorem Settled.inv_idle (h : Settled s) (hbusy : s.busy = false) (hctl : s.ctl = .idle) : BlockInv s := by
  refine h.blockInv ?_
  constructor <;> simp [h.off, h.noFrame, hbusy, hctl]

/-- A request between two attempts. -/
theorem Settled.inv_request (h : Settled s) (hbusy : s.busy = true) (hop : isRequestOp s.curOp = true)
    (hctl : s.ctl = .idle ∨ s.ctl = .sent) : BlockInv s := by
  refine h.blockInv ?_
  constructor <;> simp [h.off, h.noFrame, hbusy, hctl, hop]

theorem endOp_inv (h : Settled s) (hctl : s.ctl = .idle) : BlockInv (endOp s) :=
  (h.of_view rfl rfl rfl : Settled (endOp s)).inv_idle rfl hctl

/-- An operation that sends begins to. -/
theorem startFrame_inv {p : Byte} {d : List Byte} (h : Settled s) (hbusy : s.busy = true) (hctl : s.ctl = .idle)
    (hop : isRequestOp s.curOp = true ∨ s.curOp = opSend ∨ s.curOp = opSendRsp)
    (hlen : d.length ≤ s.cfg.maxPayload) : BlockInv (startFrame p d s) := by
  have hdecode : DecodeFits (startFrame p d s) := decodeFits_of_off h.off h.empty h.noS1
  have hoperation : OperationFits (startFrame p d s) := by
    constructor <;> simp [h.off, hbusy, hctl, hop, hlen]
  exact ⟨h.params, h.clocks.of_view rfl, h.arrays.of_view rfl, hdecode, hoperation, h.kind, h.len⟩

theorem startRequest_inv {register parameter : Half} {port : Byte} (h : Settled s) (hbusy : s.busy = true)
    (hctl : s.ctl = .idle) (hop : isRequestOp s.curOp = true) :
    BlockInv (startRequest register parameter port s) := by
  obtain ⟨hpayload, -⟩ := h.params
  exact startFrame_inv h hbusy hctl (.inl hop) hpayload

theorem startAttempt_inv (h : Settled s) (hbusy : s.busy = true) (howner : AttemptOwner s) :
    BlockInv (startAttempt s) := by
  have hdecode : DecodeFits (startAttempt s) := by
    constructor <;> simp [Params.maxLen]
  have hoperation : OperationFits (startAttempt s) := by
    obtain ⟨hop, hctl⟩ | ⟨hop, hctl⟩ := howner
    · constructor <;> simp [hbusy, hctl, hop, h.noFrame]
    · constructor <;> simp [hbusy, hctl, hop, h.noFrame]
  exact ⟨h.params, h.clocks.of_view rfl, h.arrays.of_view rfl, hdecode, hoperation, h.kind, h.len⟩

/-! ### The controller -/

theorem startSubQuery_inv (i : Fin 3) (h : Settled s) (hbusy : s.busy = true) (hctl : s.ctl = .idle)
    (hop : isRequestOp s.curOp = true) : BlockInv (startSubQuery i s) :=
  startRequest_inv (s := { s with revIdx := i }) (h.of_view rfl rfl rfl) hbusy hctl hop

theorem queryResult_view (r : Resolution) (s : State) : invView (queryResult r s) = invView (endOp s) := by
  cases r <;> rfl

theorem controlResult_view (r : Resolution) (s : State) : invView (controlResult r s) = invView (endOp s) := by
  cases r <;> rfl

theorem scanResult_view (r : Resolution) (s : State) : invView (scanResult r s) = invView (endOp s) := by
  cases r with
  | success v =>
    simp only [scanResult]
    split <;> rfl
  | _ => rfl

theorem revisionResult_inv (r : Resolution) (h : Settled s) (hbusy : s.busy = true) (hctl : s.ctl = .idle)
    (hop : isRequestOp s.curOp = true) : BlockInv (revisionResult r s) := by
  cases r with
  | success v =>
    simp only [revisionResult]
    split
    · exact startSubQuery_inv 1 (h.of_view rfl rfl rfl) hbusy hctl hop
    · exact startSubQuery_inv 2 (h.of_view rfl rfl rfl) hbusy hctl hop
    · exact (endOp_inv h hctl).of_view rfl
  | _ => exact (endOp_inv h hctl).of_view rfl

theorem commandResult_inv (r : Resolution) (h : Settled s) (hbusy : s.busy = true) (hctl : s.ctl = .idle)
    (hop : isRequestOp s.curOp = true) : BlockInv (commandResult r s) := by
  unfold commandResult
  split_ifs
  · exact (endOp_inv h hctl).of_view (queryResult_view r s)
  · exact (endOp_inv h hctl).of_view (controlResult_view r s)
  · exact (endOp_inv h hctl).of_view (scanResult_view r s)
  · exact revisionResult_inv r h hbusy hctl hop

theorem concludeRequest_inv (r : Resolution) (h : Settled s) (hbusy : s.busy = true)
    (hop : isRequestOp s.curOp = true) : BlockInv (concludeRequest r s) :=
  commandResult_inv (s := { s with ctl := .idle }) r (h.of_view rfl rfl rfl) hbusy rfl hop

theorem resolveOk_inv (h : Settled s) (hbusy : s.busy = true) (hop : isRequestOp s.curOp = true) :
    BlockInv (resolveOk s) := by
  unfold resolveOk
  split
  · exact concludeRequest_inv _ h hbusy hop
  · exact concludeRequest_inv _ (h.of_view rfl rfl rfl) hbusy hop

theorem requestOutcome_inv (k : Kind) (h : Settled s) (hbusy : s.busy = true) (hctl : s.ctl = .sent)
    (hop : isRequestOp s.curOp = true) : BlockInv (requestOutcome k s) := by
  cases k with
  | noData => exact h.inv_request hbusy hop (.inr hctl)
  | ok => exact resolveOk_inv h hbusy hop
  | _ => exact concludeRequest_inv _ h hbusy hop

theorem pollDeadline_inv (h : Settled s) (hbusy : s.busy = true) (hctl : s.ctl = .sent)
    (hop : isRequestOp s.curOp = true) : BlockInv (pollDeadline s) := by
  unfold pollDeadline
  split
  · exact concludeRequest_inv _ (h.of_view rfl rfl rfl) hbusy hop
  · exact startAttempt_inv h hbusy (.inl ⟨hop, hctl⟩)

/-- S0 (R195): the sample of `now` is a clock value. -/
theorem enterSent_inv (h : Settled s) (hbusy : s.busy = true) (hop : isRequestOp s.curOp = true) :
    BlockInv (enterSent s) := by
  obtain ⟨hout, hnow, hstart, -⟩ := h.clocks
  have hsent : Settled { s with ctl := .sent, tReq := s.now } :=
    ⟨⟨h.params, ⟨hout, hnow, hstart, hnow⟩, h.arrays.of_view rfl, h.len, h.empty, h.noS1, h.noFrame⟩, h.off, h.kind⟩
  exact startAttempt_inv hsent hbusy (.inl ⟨hop, rfl⟩)

/-! ### The end of an attempt -/

theorem recvReqResult_view (k : Kind) (s : State) : invView (recvReqResult k s) = invView (endOp s) := by
  unfold recvReqResult
  split_ifs <;> rfl

theorem deliver_inv (k : Kind) (h : Settled s) (hbusy : s.busy = true) (howner : AttemptOwner s) :
    BlockInv (deliver k s) := by
  obtain ⟨hop, hctl⟩ | ⟨hop | hop, hctl⟩ := howner
  · rw [deliver_request k hop]
    exact requestOutcome_inv k h hbusy hctl hop
  · rw [deliver_recvReq k hop]
    exact (endOp_inv h hctl).of_view (recvReqResult_view k s)
  · rw [deliver_receive k hop]
    exact endOp_inv h hctl

theorem endAttempt_inv {k : Kind} (hk : IsOutcome k) (h : Emptied s) (hbusy : s.busy = true)
    (howner : AttemptOwner s) : BlockInv (endAttempt k s) :=
  deliver_inv k (s := raiseKind k s) ⟨h.of_view rfl, rfl, hk⟩ hbusy howner

/-! ### An attempt in progress -/

/-- The decode machine is running in `s`, its operation the owner. -/
theorem BlockInv.busy_of_running (h : BlockInv s) (hc : s.cp ≠ .dOff) : s.busy = true := by
  by_contra hb
  obtain ⟨hoff, -⟩ := h.operation.quiescent (by simpa using hb)
  exact hc hoff

theorem BlockInv.owner_of_running (h : BlockInv s) (hc : s.cp ≠ .dOff) : AttemptOwner s := by
  have hidle (hop : isRequestOp s.curOp = false) : s.ctl = .idle := by
    refine h.operation.shown.resolve_right fun hsent => ?_
    rw [h.operation.sentByRequest hsent] at hop
    cases hop
  obtain hreq | hrecv | hrecv := h.operation.attempt hc
  · exact .inl hreq
  · exact .inr ⟨.inl hrecv, hidle (hrecv ▸ rfl)⟩
  · exact .inr ⟨.inr hrecv, hidle (hrecv ▸ rfl)⟩

theorem BlockInv.noS1_of_ne_begin (h : BlockInv s) (hc : s.cp ≠ .dBegin) : s.s1Seen = false := by
  by_contra hs1
  exact hc (h.decode.s1AtBegin (by simpa using hs1))

theorem BlockInv.emptied (h : BlockInv s) (henc : s.enc = none) (hs1 : s.s1Seen = false) :
    Emptied { s with cursor := 0 } :=
  ⟨h.params, h.clocks.of_view rfl, h.arrays.of_view rfl, h.result.len, rfl, hs1, henc⟩

/-- The decode machine goes from one control point of an attempt to another. -/
theorem BlockInv.move {buf : Memory} {cursor : Byte} {cp : ControlPoint} {s1 : Bool} {tStart : Clock}
    {rxq : List LineUnit} (h : BlockInv s) (hc : s.cp ≠ .dOff) (hcp : cp ≠ .dOff)
    (htStart : tStart.toNat < 2 ^ s.cfg.clockW) (hform : buf.wf) (hrange : ∀ e ∈ buf, e.1 < s.cfg.bufCap)
    (hdecode : DecodeFits
      { s with buf := buf, cursor := cursor, cp := cp, s1Seen := s1, tStart := tStart, rxq := rxq }) :
    BlockInv { s with buf := buf, cursor := cursor, cp := cp, s1Seen := s1, tStart := tStart, rxq := rxq } := by
  have hbusy := h.busy_of_running hc
  obtain ⟨hout, hnow, -, hreq⟩ := h.clocks
  obtain ⟨-, htxp, hrxp, -, htxpr, hrxpr⟩ := h.arrays
  obtain ⟨-, hshown, hsent, hattempt, hsending, -, hpayload⟩ := h.operation
  have hnoFrame : s.enc = none := by
    by_contra henc
    obtain ⟨hoff, -⟩ := hsending henc
    exact hc hoff
  refine ⟨h.params, ⟨hout, hnow, htStart, hreq⟩, ⟨hform, htxp, hrxp, hrange, htxpr, hrxpr⟩, hdecode, ?_,
    h.result.kind, h.result.len⟩
  exact {
    quiescent := fun hidle => absurd (hbusy.symm.trans hidle) (by decide)
    shown := hshown
    sentByRequest := hsent
    attempt := fun _ => hattempt hc
    sending := fun henc => absurd hnoFrame henc
    between := fun _ hoff _ => absurd hoff hcp
    payloadFits := hpayload }

theorem testAvailable_inv (h : BlockInv s) (henc : s.enc = none) (hc : s.cp = .dBegin) (hs1 : s.s1Seen = false) :
    BlockInv (testAvailable s) := by
  have hrunning : s.cp ≠ .dOff := by simp [hc]
  have hempty := h.decode.beginEmpty hc
  unfold testAvailable
  split
  · have hs : { s with cursor := 0 } = s := by rw [← hempty]
    exact endAttempt_inv (.inr (.inl rfl)) (hs ▸ h.emptied henc hs1) (h.busy_of_running hrunning)
      (h.owner_of_running hrunning)
  · rename_i hwaiting
    have hrxq : s.rxq ≠ [] := by simpa [unitsAvailable, hempty] using hwaiting
    refine h.move hrunning hrunning h.clocks.tStart h.arrays.bufForm h.arrays.bufRange ?_
    constructor <;> simp [hc, hempty, hrxq]

theorem recordStart_inv (h : BlockInv s) (hc : s.cp = .dBegin) (hs1 : s.s1Seen = true) :
    BlockInv (recordStart s) := by
  have hempty := h.decode.beginEmpty hc
  have hrxq := h.decode.available (.inr (.inr hs1))
  refine h.move (by simp [hc]) (by simp) h.clocks.now h.arrays.bufForm h.arrays.bufRange ?_
  constructor <;> simp [hempty, hrxq, Params.maxLen]

theorem testDeadline_inv (h : BlockInv s) (henc : s.enc = none) (hc : s.cp = .dLoop) :
    BlockInv (testDeadline s) := by
  have hrunning : s.cp ≠ .dOff := by simp [hc]
  have hs1 := h.noS1_of_ne_begin (by simp [hc])
  unfold testDeadline
  split
  · exact endAttempt_inv (.inr (.inr (.inl rfl))) ((h.emptied henc hs1).of_view rfl) (h.busy_of_running hrunning)
      (h.owner_of_running hrunning)
  · refine h.move hrunning (by simp) h.clocks.tStart h.arrays.bufForm h.arrays.bufRange ?_
    constructor <;>
      simp [hs1, h.decode.withinBuffer, h.decode.withinFrame, h.decode.waiting (.inl hc), h.decode.available (.inl hc)]

/-- S4 and the store, of a unit taken from the head of `rxq`. -/
theorem storeUnit_inv {u : LineUnit} {rest : List LineUnit} (h : BlockInv s) (henc : s.enc = none) (hc : s.cp = .dRead)
    (hstore : storeUnit u { s with rxq := rest } = .next t) : BlockInv t := by
  have hrunning : s.cp ≠ .dOff := by simp [hc]
  have hs1 := h.noS1_of_ne_begin (by simp [hc])
  obtain ⟨-, -, -, hcap, -⟩ := h.params
  have hframe : s.cursor.toNat < s.cfg.maxLen := h.decode.waiting (.inr hc)
  have hrange {i : Nat} {b : Byte} (hi : i < s.cfg.bufCap) : ∀ e ∈ s.buf.write i b, e.1 < s.cfg.bufCap := by
    intro e he
    obtain rfl | he := Memory.mem_write _ _ _ _ he
    · exact hi
    · exact h.arrays.bufRange e he
  unfold storeUnit at hstore
  split at hstore
  · obtain ⟨hroom, rfl⟩ := storeStart_eq_next hstore
    have hstart : BlockInv { s with buf := s.buf.write 0 (stripUnit u), cursor := 1, cp := .dEof, rxq := rest } := by
      refine h.move hrunning (by simp) h.clocks.tStart (Memory.write_wf _ _ _ h.arrays.bufForm) (hrange hroom) ?_
      have hone : 1 ≤ s.cfg.bufCap := hroom
      constructor <;> simp [hs1, hone, Params.maxLen]
    refine hstart.of_view ?_
    split <;> rfl
  · obtain ⟨-, rfl⟩ | ⟨hroom, rfl⟩ := storeData_eq_next hstore
    · exact endAttempt_inv (.inr (.inr (.inr (.inr (.inl rfl))))) ((h.emptied henc hs1).of_view rfl)
        (h.busy_of_running hrunning) (h.owner_of_running hrunning)
    · refine h.move hrunning (by simp) h.clocks.tStart (Memory.write_wf _ _ _ h.arrays.bufForm) (hrange hroom) ?_
      have hroom' : s.cursor.toNat < s.cfg.bufCap := hroom
      have hnext : (s.cursor + 1).toNat = s.cursor.toNat + 1 := by bv_omega
      exact {
        offEmpty := by simp
        beginEmpty := by simp
        withinBuffer := hnext.trans_le hroom'
        withinFrame := hnext.trans_le hframe
        waiting := by simp
        stored := fun _ => (Nat.le_add_left 1 _).trans_eq hnext.symm
        available := by simp [hs1]
        s1AtBegin := by simp [hs1] }

theorem testGap_inv (h : BlockInv s) (hc : s.cp = .dEof) : BlockInv (testGap s) := by
  have hs1 := h.noS1_of_ne_begin (by simp [hc])
  have hstored := h.decode.stored (.inl hc)
  refine h.move (by simp [hc]) (by split <;> simp) h.clocks.tStart h.arrays.bufForm h.arrays.bufRange ?_
  cases hcomplete : frameComplete s with
  | true => constructor <;> simp [hs1, hstored, h.decode.withinBuffer, h.decode.withinFrame]
  | false =>
    have hmore : s.rxq ≠ [] ∧ s.cursor.toNat < s.cfg.maxLen := by
      simpa [frameComplete, unitsAvailable] using hcomplete
    obtain ⟨hrxq, hframe⟩ := hmore
    constructor <;> simp [hs1, hrxq, hframe, h.decode.withinBuffer, h.decode.withinFrame]

/-- Steps 5 and 6: a payload that is latched is within RXP. -/
theorem finishFrame_inv {p : Byte} {d : List Byte} {ck : Half} (h : BlockInv s) (henc : s.enc = none)
    (hc : s.cp = .dFinish) (hfinish : finishFrame p d ck s = .next t) : BlockInv t := by
  have hrunning : s.cp ≠ .dOff := by simp [hc]
  have hbusy := h.busy_of_running hrunning
  have howner := h.owner_of_running hrunning
  have hempty := h.emptied henc (h.noS1_of_ne_begin (by simp [hc]))
  obtain ⟨-, hlen, rfl⟩ | ⟨-, rfl⟩ := finishFrame_eq_next hfinish
  · obtain ⟨hbuf, htxp, hrxp, hbufr, htxpr, hrxpr⟩ := h.arrays
    have hrange : ∀ e ∈ s.rxp.writeList 0 d, e.1 < s.cfg.maxPayload := by
      intro e he
      obtain ⟨-, he⟩ | he := Memory.mem_writeList _ _ _ _ he
      · omega
      · exact hrxpr e he
    have hlatched : (BitVec.ofNat 8 d.length).toNat ≤ s.cfg.maxPayload := by
      rw [BitVec.toNat_ofNat]
      exact (Nat.mod_le _ _).trans hlen
    exact endAttempt_inv (.inl rfl)
      ⟨h.params, h.clocks.of_view rfl, ⟨hbuf, htxp, Memory.writeList_wf _ _ _ hrxp, hbufr, htxpr, hrange⟩, hlatched,
        rfl, hempty.noS1, henc⟩ hbusy howner
  · exact endAttempt_inv (.inr (.inr (.inr (.inr (.inr rfl))))) (hempty.of_view rfl) hbusy howner

theorem finishAttempt_inv (h : BlockInv s) (henc : s.enc = none) (hc : s.cp = .dFinish)
    (hfinish : finishAttempt s = .next t) : BlockInv t := by
  have hrunning : s.cp ≠ .dOff := by simp [hc]
  unfold finishAttempt at hfinish
  split_ifs at hfinish
  · cases hfinish
    exact endAttempt_inv (.inr (.inr (.inr (.inl rfl))))
      ((h.emptied henc (h.noS1_of_ne_begin (by simp [hc]))).of_view rfl) (h.busy_of_running hrunning)
      (h.owner_of_running hrunning)
  · exact finishFrame_inv h henc hc hfinish

/-! ### The encoder -/

theorem BlockInv.busy_of_sending {r : EncRun} (h : BlockInv s) (henc : s.enc = some r) : s.busy = true := by
  by_contra hb
  obtain ⟨-, -, hnone⟩ := h.operation.quiescent (by simpa using hb)
  rw [henc] at hnone
  cases hnone

/-- With the decode machine off, all that can be in progress is a frame. -/
theorem BlockInv.settled_of_off (h : BlockInv s) (hoff : s.cp = .dOff) : Settled { s with enc := none } :=
  ⟨⟨h.params, h.clocks.of_view rfl, h.arrays.of_view rfl, h.result.len, h.decode.offEmpty hoff,
    h.noS1_of_ne_begin (by simp [hoff]), rfl⟩, hoff, h.result.kind⟩

theorem BlockInv.settled (h : BlockInv s) (hoff : s.cp = .dOff) (henc : s.enc = none) : Settled s := by
  have hs : { s with enc := none } = s := by rw [← henc]
  exact hs ▸ h.settled_of_off hoff

/-- The encoder goes on in the same frame. -/
theorem BlockInv.sendOn {r r' : EncRun} (h : BlockInv s) (henc : s.enc = some r) (hr : r'.payload = r.payload) :
    BlockInv { s with enc := some r' } := by
  have hbusy := h.busy_of_sending henc
  obtain ⟨-, hshown, hsent, hattempt, hsending, -, hpayload⟩ := h.operation
  obtain ⟨hoff, hidle, hop⟩ := hsending (by simp [henc])
  refine ⟨h.params, h.clocks.of_view rfl, h.arrays.of_view rfl, ?_, ?_, h.result.kind, h.result.len⟩
  · exact decodeFits_of_off hoff (h.decode.offEmpty hoff) (h.noS1_of_ne_begin (by simp [hoff]))
  · exact {
      quiescent := fun hb => absurd (hbusy.symm.trans hb) (by decide)
      shown := hshown
      sentByRequest := hsent
      attempt := hattempt
      sending := fun _ => ⟨hoff, hidle, hop⟩
      between := fun _ _ hnone => nomatch hnone
      payloadFits := by
        rintro _ ⟨⟩
        exact hr ▸ hpayload r henc }

theorem frameSent_inv (h : Settled s) (hbusy : s.busy = true) (hctl : s.ctl = .idle) : BlockInv (frameSent s) := by
  unfold frameSent
  split
  · exact h.inv_request hbusy ‹_› (.inl hctl)
  · exact endOp_inv h hctl

theorem encodeTick_inv {r : EncRun} (h : BlockInv s) (henc : s.enc = some r) : BlockInv (encodeTick r s) := by
  have hbusy := h.busy_of_sending henc
  obtain ⟨hoff, hidle, -⟩ := h.operation.sending (by simp [henc])
  cases hstage : r.stage with
  | portUnit =>
    rw [encodeTick_port s hstage]
    exact (h.sendOn (r' := { r with stage := stageFor r.payload, acc := r.port.setWidth 16 }) henc rfl).of_view rfl
  | payloadUnit b rest =>
    rw [encodeTick_payload s hstage]
    exact (h.sendOn (r' := { r with stage := stageFor rest, acc := checksumAdd r.acc b }) henc rfl).of_view rfl
  | checksumHigh =>
    rw [encodeTick_high s hstage]
    exact (h.sendOn (r' := { r with stage := .checksumLow }) henc rfl).of_view rfl
  | checksumLow =>
    rw [encodeTick_low s hstage]
    exact frameSent_inv ((h.settled_of_off hoff).of_view rfl rfl rfl) hbusy hidle

/-! ### One action, and the environment -/

theorem betweenAttempts_inv (h : BlockInv s) (hbusy : s.busy = true) (hoff : s.cp = .dOff) (henc : s.enc = none) :
    BlockInv (betweenAttempts s) := by
  have hop := h.operation.between hbusy hoff henc
  have hsettled := h.settled hoff henc
  rw [betweenAttempts, if_pos hop]
  obtain hctl | hctl := h.operation.shown
  · simpa only [controllerTick, hctl] using enterSent_inv hsettled hbusy hop
  · simpa only [controllerTick, hctl] using pollDeadline_inv hsettled hbusy hctl hop

theorem act_inv (h : BlockInv s) (hbusy : s.busy = true) (hact : act s = .next t) : BlockInv t := by
  cases he : s.enc with
  | some r =>
    rw [act_sending he] at hact
    cases hact
    exact encodeTick_inv h he
  | none =>
    cases hc : s.cp with
    | dOff =>
      rw [act_off he hc] at hact
      cases hact
      exact betweenAttempts_inv h hbusy hc he
    | dBegin =>
      rw [act_begin he hc] at hact
      cases hact
      split
      · exact recordStart_inv h hc ‹_›
      · rename_i hs1
        exact testAvailable_inv h he hc (by simpa using hs1)
    | dLoop =>
      rw [act_loop he hc] at hact
      cases hact
      exact testDeadline_inv h he hc
    | dRead =>
      rw [act_read he hc] at hact
      cases hq : s.rxq with
      | nil => exact absurd hq (h.decode.available (.inr (.inl hc)))
      | cons u rest =>
        rw [readUnit_cons hq] at hact
        exact storeUnit_inv h he hc hact
    | dEof =>
      rw [act_eof he hc] at hact
      cases hact
      exact testGap_inv h hc
    | dFinish => exact finishAttempt_inv h he hc (act_finish he hc ▸ hact)

theorem environmentActs_inv (h : BlockInv s) : BlockInv (environmentActs s) := by
  obtain ⟨hout, -, hstart, hreq⟩ := h.clocks
  obtain ⟨hoff, hbegin, hcap, hframe, hwait, hstored, havail, hs1⟩ := h.decode
  obtain ⟨hquiet, hshown, hsent, hattempt, hsending, hbetween, hpayload⟩ := h.operation
  have hnow : (environmentActs s).now.toNat < 2 ^ s.cfg.clockW := by
    rw [environmentActs_now, BitVec.toNat_ofNat]
    exact (Nat.mod_le _ _).trans_lt (Nat.mod_lt _ (Nat.two_pow_pos _))
  exact ⟨h.params, ⟨hout, hnow, hstart, hreq⟩, h.arrays.of_view rfl,
    ⟨hoff, hbegin, hcap, hframe, hwait, hstored, fun hc => List.append_ne_nil_of_left_ne_nil (havail hc) _, hs1⟩,
    ⟨hquiet, hshown, hsent, hattempt, hsending, hbetween, hpayload⟩, h.result.kind, h.result.len⟩

/-- Reset leaves `now` to the environment, everything else of the invariant is that of the reset state. -/
theorem resetBlock_inv (h : BlockInv s) : BlockInv (resetBlock s) := by
  have hreset := resetHasTheInvariant s.cfg h.params
  have hsettled : Settled (resetBlock s) :=
    ⟨⟨h.params, ⟨hreset.clocks.timeout, h.clocks.now, hreset.clocks.tStart, hreset.clocks.tReq⟩,
      hreset.arrays.of_view rfl, hreset.result.len, rfl, rfl, rfl⟩, rfl, hreset.result.kind⟩
  exact hsettled.inv_idle rfl rfl

theorem moved_inv (h : BlockInv s) : BlockInv (moved s) := by
  refine (environmentActs_inv h).of_view ?_
  unfold moved refusePresented
  split <;> rfl

theorem tick_inv (h : BlockInv s) (hbusy : s.busy = true) (htick : tick s = .next t) : BlockInv t := by
  cases hr : (nextMove s).rst with
  | true =>
    rw [tick, if_pos hr] at htick
    cases htick
    exact resetBlock_inv (environmentActs_inv h)
  | false =>
    have hmoved : (moved s).busy = s.busy := by
      unfold moved refusePresented
      split <;> rfl
    rw [tick_of_not_rst hr] at htick
    exact act_inv (moved_inv h) (hmoved.trans hbusy) htick

/-! ### Commands, and the step -/

/-- The ten values of `op` in R101. -/
theorem op_cases_of_not_reserved (op : Nibble) (h : isReservedOp op = false) :
    op ∈ [opSetTimeout, opQuery, opControl, opScan, opGetRevision, opRecvReq, opReceive, opSendRsp, opSend, opLoadp] := by
  revert op
  decide

theorem firstAction_inv (h : Settled s) (hbusy : s.busy = true) (hctl : s.ctl = .idle)
    (hop : isReservedOp s.curOp = false) (hsend : s.curOp = opSend → lengthOperand s.opA ≤ s.cfg.maxPayload)
    (hload : s.curOp = opLoadp → indexOperand s.opA < s.cfg.maxPayload) : BlockInv (firstAction s) := by
  have hcases := op_cases_of_not_reserved _ hop
  simp only [List.mem_cons, List.not_mem_nil, or_false] at hcases
  obtain hc | hc | hc | hc | hc | hc | hc | hc | hc | hc := hcases
  · rw [firstAction_setTimeout hc]
    have htimeout : (msOperand s.cfg.clockW s.opA s.opB).toNat < 2 ^ s.cfg.clockW := by
      rw [msOperand, clockTrunc, BitVec.toNat_ofNat]
      exact (Nat.mod_le _ _).trans_lt (Nat.mod_lt _ (Nat.two_pow_pos _))
    have hset : Settled { s with timeout := msOperand s.cfg.clockW s.opA s.opB } :=
      ⟨⟨h.params, ⟨htimeout, h.clocks.now, h.clocks.tStart, h.clocks.tReq⟩, h.arrays.of_view rfl, h.len, h.empty,
        h.noS1, h.noFrame⟩, h.off, h.kind⟩
    exact endOp_inv hset hctl
  · rw [firstAction_query hc]
    exact startRequest_inv h hbusy hctl (hc ▸ rfl)
  · rw [firstAction_control hc]
    exact startRequest_inv h hbusy hctl (hc ▸ rfl)
  · rw [firstAction_scan hc]
    exact startRequest_inv h hbusy hctl (hc ▸ rfl)
  · rw [firstAction_getRevision hc]
    exact startSubQuery_inv 0 h hbusy hctl (hc ▸ rfl)
  · rw [firstAction_recvReq hc]
    exact startAttempt_inv h hbusy (.inr ⟨.inl hc, hctl⟩)
  · rw [firstAction_receive hc]
    exact startAttempt_inv h hbusy (.inr ⟨.inr hc, hctl⟩)
  · rw [firstAction_sendRsp hc]
    obtain ⟨hpayload, -⟩ := h.params
    exact startFrame_inv h hbusy hctl (.inr (.inr hc)) (le_trans (by decide : 2 ≤ 4) hpayload)
  · rw [firstAction_send hc]
    exact startFrame_inv h hbusy hctl (.inr (.inl hc)) ((bytesAt_length ..).trans_le (hsend hc))
  · rw [firstAction_loadp hc]
    obtain ⟨hbuf, htxp, hrxp, hbufr, htxpr, hrxpr⟩ := h.arrays
    have hrange : ∀ e ∈ s.txp.write (indexOperand s.opA) (byteOperand s.opB), e.1 < s.cfg.maxPayload := by
      intro e he
      obtain rfl | he := Memory.mem_write _ _ _ _ he
      · exact hload hc
      · exact htxpr e he
    have hstored : Settled (storeTxp (indexOperand s.opA) (byteOperand s.opB) s) :=
      ⟨⟨h.params, h.clocks.of_view rfl, ⟨hbuf, Memory.write_wf _ _ _ htxp, hrxp, hbufr, hrange, hrxpr⟩, h.len, h.empty,
        h.noS1, h.noFrame⟩, h.off, h.kind⟩
    exact endOp_inv hstored hctl

theorem perform_inv {w : CmdWord} (h : BlockInv s) (hperform : perform w firstAction s = .next t) : BlockInv t := by
  obtain ⟨-, rfl⟩ | ⟨hr, hrun⟩ := perform_eq_next hperform
  · exact h.of_view rfl
  · obtain ⟨hidle, -, hop, hsend, hload⟩ := refuses_eq_false_iff.mp hr
    obtain ⟨hoff, hctl, henc⟩ := h.operation.quiescent hidle
    have haccepted : Settled (accept w s) := (h.settled hoff henc).of_view rfl rfl rfl
    exact runSteps_keeps (fun _ _ hu hbusy htick => tick_inv hu hbusy htick) _
      (firstAction_inv haccepted rfl hctl hop hsend hload) hrun

/-- Settles O48: a busy block's action, reset, and a command performed from the idle block each keep the invariant. -/
theorem everyStepKeepsTheInvariant : Obligations.EveryStepKeepsTheInvariant := by
  intro s t h hnext
  have henv := environmentActs_inv h
  obtain ⟨hbusy, hstep⟩ | ⟨-, -, hstep⟩ | ⟨-, -, hstep⟩ | ⟨-, -, w, q, -, hstep⟩ := step_cases_idle s <;>
    rw [hstep] at hnext
  · exact tick_inv h hbusy hnext
  · cases hnext
    exact resetBlock_inv henv
  · cases hnext
    exact henv
  · have hnextHost : BlockInv { environmentActs s with hostq := q } := henv.of_view rfl
    exact perform_inv hnextHost hnext

end

end Sys2Proof.Safety
end

section
/-! SUPPORT. What the host reads (spec 10_state.md R25, R33, 60_exceptions.md R235). -/

namespace Sys2Proof.Machine

open Sys2Proof.Safety

/-- The kind that R235 gives a code. -/
def codeKind (c : Nibble) : Kind :=
  if c = 0x0 then .ok
  else if c = 0x1 then .noData
  else if c = 0x2 then .timeout
  else if c = 0x3 then .truncated
  else if c = 0x4 then .overflow
  else if c = 0x5 then .checksumMismatch
  else if c = 0x6 then .unresolvedDeviceType
  else if c = 0x7 then .badLength
  else .refused

/-- The codes of R235 tell the kinds apart. -/
theorem kindCode_injective : Function.Injective kindCode :=
  Function.LeftInverse.injective (g := codeKind) fun k => by cases k <;> rfl

theorem rxKind_eq_iff (s : State) (k : Kind) : s.rxKind = k ↔ portRxKind s = kindCode k :=
  kindCode_injective.eq_iff.symm

/-- The six outcomes of an attempt have the codes up to 5. -/
theorem portRxKind_le_five {s : State} (h : BlockInv s) : (portRxKind s).toNat ≤ 5 := by
  unfold portRxKind
  obtain hk | hk | hk | hk | hk | hk := h.result.kind <;> rw [hk] <;> decide

theorem portQValue_eq (s : State) :
    portQValue s = if s.qValue.toNat < 32768 then (s.qValue.toNat : Int) else (s.qValue.toNat : Int) - 65536 := by
  rw [portQValue, BitVec.toInt_eq_toNat_cond]
  split <;> split <;> omega

/-- The sentinel is the one value read as -1. -/
theorem portQValue_eq_neg_one_iff (s : State) : portQValue s = -1 ↔ s.qValue = 0xFFFF :=
  BitVec.toInt_inj (x := s.qValue) (y := 0xFFFF)

/-- Settles O59. -/
theorem hostReadsTheCodes : Obligations.HostReadsTheCodes :=
  ⟨fun s => ⟨rxKind_eq_iff s _, rxKind_eq_iff s _, rxKind_eq_iff s _, rxKind_eq_iff s _, rxKind_eq_iff s _,
      rxKind_eq_iff s _, rxKind_eq_iff s _, rxKind_eq_iff s _, rxKind_eq_iff s _⟩,
    fun _ h => portRxKind_le_five h, portQValue_eq, fun s => (portQValue_eq_neg_one_iff s).symm⟩

end Sys2Proof.Machine
end

section
/-! SUPPORT. Where a step finds a command word and a line unit (spec 20_memory.md R66, 42_decode.md R146, 60_exceptions.md
R243). -/

namespace Sys2Proof.Machine

theorem moved_of_not_present {s : State} (h : (nextMove s).present = none) : moved s = environmentActs s :=
  refusePresented_none _ h

/-- Settles O43: an idle block fetches the presented word, and the head of the host's list when none is presented. -/
theorem stepRunsThePresentedCommand : Obligations.StepRunsThePresentedCommand := by
  intro s w hidle hrst
  rw [step_eq_run hrst, fetch_of_idle hidle]
  constructor
  · intro hpresent
    simp only [fetchCommand, hpresent, Fetched.run]
  · intro hnone rest hhost
    simp only [fetchCommand, hnone, environmentActs_hostq, hhost, Fetched.run]

/-- Settles O44: the step is S4, which takes the head of `rxq`. -/
theorem stepRunsTheWaitingUnit : Obligations.StepRunsTheWaitingUnit := by
  intro s u rest hbusy henc hcp hrst hnone hrxq
  calc step s = act (environmentActs s) := by
        rw [step_of_busy hbusy, tick_of_not_rst hrst, moved_of_not_present hnone]
    _ = storeUnit u { environmentActs s with rxq := rest } :=
        (act_read (s := environmentActs s) henc hcp).trans (readUnit_cons hrxq)
    _ = exec (decodeUnit u) { environmentActs s with rxq := rest } := (exec_decodeUnit _ _).symm

end Sys2Proof.Machine
end

section
/-! SUPPORT. The one byte that a unit stores (spec 20_memory.md R61, 42_decode.md R148 to R150). -/

namespace Sys2Proof.Machine

/-- Byte by byte, `t` is `s` after `buf[i] <- b`. -/
def StoresOneByte (i : Nat) (b : Byte) (s t : State) : Prop :=
  byteAt t .buf i = b ∧ (∀ j, j ≠ i → byteAt t .buf j = byteAt s .buf j) ∧
    (∀ j, byteAt t .rxp j = byteAt s .rxp j) ∧ (∀ j, byteAt t .txp j = byteAt s .txp j)

/-- Only the contents of the arrays and the count of resets decide what is read. -/
theorem storesOneByte_of_write {i : Nat} {b : Byte} {s t : State} (hbuf : t.buf = s.buf.write i b)
    (hrxp : t.rxp = s.rxp) (htxp : t.txp = s.txp) (hepoch : t.epoch = s.epoch) : StoresOneByte i b s t := by
  refine ⟨byteAt_of_read ?_, fun j hj => byteAt_congr ?_ hepoch, fun j => byteAt_congr ?_ hepoch,
    fun j => byteAt_congr ?_ hepoch⟩
  · simp [spaceMemory, hbuf]
  · simp only [spaceMemory, hbuf, Memory.read_write_other _ _ hj]
  · simp only [spaceMemory, hrxp]
  · simp only [spaceMemory, htxp]

theorem storeStart_storesOneByte {b : Byte} {s t : State} (h : storeStart b s = .next t) : StoresOneByte 0 b s t := by
  obtain ⟨-, rfl⟩ := storeStart_eq_next h
  split
  · exact storesOneByte_of_write rfl rfl rfl rfl
  · exact storesOneByte_of_write rfl rfl rfl rfl

theorem storeData_storesOneByte {b : Byte} {s t : State} (hroom : s.cursor.toNat < s.cfg.bufCap)
    (h : storeData b s = .next t) : StoresOneByte s.cursor.toNat b s t := by
  obtain ⟨hfull, -⟩ | ⟨-, rfl⟩ := storeData_eq_next h
  · exact absurd hfull hroom.ne
  · exact storesOneByte_of_write rfl rfl rfl rfl

/-- Settles O14: each unit that is stored is one write into BUF. -/
theorem unitsStoreOneByte : Obligations.UnitsStoreOneByte :=
  fun _ _ _ => ⟨fun h => storeStart_storesOneByte h, fun hroom h => storeData_storesOneByte hroom h⟩

end Sys2Proof.Machine
end

section
/-! SUPPORT. A block with the invariant never stops (spec 20_memory.md R60, 42_decode.md R150, R154,
93_implementation_defined.md U1): the two accesses that could fault, a unit stored into BUF and a payload latched into
RXP, stay inside their arrays. -/

namespace Sys2Proof.Safety

open Sys2Proof.Machine

/-! ### The accesses to the byte arrays -/

theorem storeStart_next (b : Byte) {s : State} (hroom : 0 < s.cfg.bufCap) : ∃ t, storeStart b s = .next t := by
  have hcfg : (if s.cursor = 0 then s else emit (.resync s.cursor) s).cfg = s.cfg := by split <;> rfl
  rw [storeStart, storeBuf_eq_next.mpr ⟨hcfg.symm ▸ hroom, rfl⟩]
  exact ⟨_, rfl⟩

/-- The bounds check of R150 keeps the append inside BUF. -/
theorem storeData_next (b : Byte) {s : State} (hcursor : s.cursor.toNat ≤ s.cfg.bufCap) :
    ∃ t, storeData b s = .next t := by
  unfold storeData
  split
  · exact ⟨_, rfl⟩
  · rename_i hfull
    have hroom : s.cursor.toNat < s.cfg.bufCap := hcursor.lt_of_ne (by simpa [bufferFull] using hfull)
    rw [storeBuf_eq_next.mpr ⟨hroom, rfl⟩]
    exact ⟨_, rfl⟩

theorem storeUnit_next (u : LineUnit) {s : State} (hroom : 0 < s.cfg.bufCap)
    (hcursor : s.cursor.toNat ≤ s.cfg.bufCap) : ∃ t, storeUnit u s = .next t := by
  unfold storeUnit
  split
  · exact storeStart_next _ hroom
  · exact storeData_next _ hcursor

theorem finishFrame_next (p : Byte) {d : List Byte} (ck : Half) {s : State} (hlen : d.length ≤ s.cfg.maxPayload) :
    ∃ t, finishFrame p d ck s = .next t := by
  unfold finishFrame
  dsimp only
  split
  · rw [latchFrame_of_fits (by simpa using hlen)]
    exact ⟨_, rfl⟩
  · exact ⟨_, rfl⟩

/-- MAX_LEN collected bytes hold at most MAX_PAYLOAD bytes of payload. -/
theorem finishAttempt_next {s : State} (hbuf : s.cursor.toNat ≤ s.cfg.bufCap)
    (hframe : s.cursor.toNat ≤ s.cfg.maxLen) : ∃ t, finishAttempt s = .next t := by
  rw [finishAttempt, if_neg (by simpa [spaceSize] using hbuf)]
  split
  · exact ⟨_, rfl⟩
  · refine finishFrame_next _ _ ?_
    rw [bytesAt_length]
    exact Nat.sub_le_of_le_add hframe

/-! ### One action, the run of an operation, and the step -/

section
variable {s : State}

theorem act_next (h : BlockInv s) : ∃ t, act s = .next t := by
  cases he : s.enc with
  | some r => exact ⟨_, act_sending he⟩
  | none =>
    cases hc : s.cp with
    | dOff => exact ⟨_, act_off he hc⟩
    | dBegin => exact ⟨_, act_begin he hc⟩
    | dLoop => exact ⟨_, act_loop he hc⟩
    | dRead =>
      rw [act_read he hc]
      cases hq : s.rxq with
      | nil => exact ⟨_, readUnit_nil hq⟩
      | cons u rest =>
        obtain ⟨-, -, hcap, -⟩ := h.params
        rw [readUnit_cons hq]
        exact storeUnit_next u (Nat.lt_of_lt_of_le (by decide) hcap) h.decode.withinBuffer
    | dEof => exact ⟨_, act_eof he hc⟩
    | dFinish =>
      rw [act_finish he hc]
      exact finishAttempt_next h.decode.withinBuffer h.decode.withinFrame

theorem tick_next (h : BlockInv s) : ∃ t, tick s = .next t := by
  cases hr : (nextMove s).rst with
  | true => exact ⟨_, by rw [tick, if_pos hr]⟩
  | false =>
    rw [tick_of_not_rst hr]
    exact act_next (moved_inv h)

theorem runSteps_next (k : Nat) (h : BlockInv s) : ∃ t, runSteps k s = .next t := by
  induction k generalizing s with
  | zero => exact ⟨s, rfl⟩
  | succ k ih =>
    cases hrest : atRest s with
    | true => exact ⟨s, runSteps_of_rest hrest⟩
    | false =>
      have hbusy : s.busy = true := by
        by_contra hidle
        rw [atRest_of_idle (by simpa using hidle)] at hrest
        cases hrest
      obtain ⟨u, hu⟩ := tick_next h
      rw [runSteps_succ hrest, hu]
      exact ih (tick_inv h hbusy hu)

/-- An accepted word's operation begins inside the invariant. -/
theorem firstAction_accept_inv {w : CmdWord} (h : BlockInv s) (haccepted : refuses s.cfg s.busy w = false) :
    BlockInv (firstAction (accept w s)) := by
  obtain ⟨hidle, -, hop, hsend, hload⟩ := refuses_eq_false_iff.mp haccepted
  obtain ⟨hoff, hctl, henc⟩ := h.operation.quiescent hidle
  exact firstAction_inv ((h.settled hoff henc).of_view rfl rfl rfl) rfl hctl hop hsend hload

theorem perform_next (w : CmdWord) (h : BlockInv s) : ∃ t, perform w firstAction s = .next t := by
  cases hr : refuses s.cfg s.busy w with
  | true => exact ⟨_, perform_refused hr⟩
  | false =>
    rw [perform_accepted hr]
    exact runSteps_next _ (firstAction_accept_inv h hr)

end

/-- Settles O50: neither the action of a busy block nor a command run from the idle block stops. -/
theorem blockNeverStops : Obligations.BlockNeverStops := by
  intro s h
  obtain ⟨-, hstep⟩ | ⟨-, -, hstep⟩ | ⟨-, -, hstep⟩ | ⟨-, -, w, q, -, hstep⟩ := step_cases_idle s
  · exact hstep ▸ tick_next h
  · exact ⟨_, hstep⟩
  · exact ⟨_, hstep⟩
  · have hnextHost : BlockInv { environmentActs s with hostq := q } := (environmentActs_inv h).of_view rfl
    exact hstep ▸ perform_next w hnextHost

end Sys2Proof.Safety
end

section
/-! SUPPORT. The frame a running encoder has still to write (spec 41_encode.md R131), and what reset leaves of it (spec
70_reset_and_hazards.md R273). -/

namespace Sys2Proof.Machine

open Sys2Proof.Safety

/-! ### The units of a run of the encoder -/

/-- What follows on the line when the bytes `todo` of the payload are left and `acc` has been accumulated. -/
def unitsAfter (acc : Half) (todo : List Byte) : List LineUnit :=
  todo.map plainUnit ++
    [plainUnit (highByte (todo.foldl checksumAdd acc)), plainUnit (lowByte (todo.foldl checksumAdd acc))]

/-- The units that a run of the encoder has still to write. -/
def unitsLeft (r : EncRun) : List LineUnit :=
  match r.stage with
  | .portUnit => encodeFrame r.port r.payload
  | .payloadUnit b rest => unitsAfter r.acc (b :: rest)
  | .checksumHigh => unitsAfter r.acc []
  | .checksumLow => [plainUnit (lowByte r.acc)]

theorem encodeFrame_length (p : Byte) (d : List Byte) : (encodeFrame p d).length = d.length + 3 := by
  simp [encodeFrame, frameUnits]

theorem unitsLeft_stageFor (p : Byte) (d todo : List Byte) (acc : Half) :
    unitsLeft { port := p, payload := d, stage := stageFor todo, acc := acc } = unitsAfter acc todo := by
  cases todo <;> rfl

/-- A run with more than one unit to write writes the first and goes on with the others. -/
theorem encodeTick_of_unitsLeft {r : EncRun} {u : LineUnit} {us : List LineUnit} (s : State)
    (h : unitsLeft r = u :: us) (hmore : us ≠ []) :
    ∃ r', unitsLeft r' = us ∧ encodeTick r s = writeUnit u { s with enc := some r' } := by
  cases hstage : r.stage with
  | portUnit =>
    rw [unitsLeft, hstage] at h
    obtain ⟨rfl, rfl⟩ := List.cons_eq_cons.mp h
    exact ⟨_, unitsLeft_stageFor .., encodeTick_port s hstage⟩
  | payloadUnit b rest =>
    rw [unitsLeft, hstage] at h
    obtain ⟨rfl, rfl⟩ := List.cons_eq_cons.mp h
    exact ⟨_, unitsLeft_stageFor .., encodeTick_payload s hstage⟩
  | checksumHigh =>
    rw [unitsLeft, hstage] at h
    obtain ⟨rfl, rfl⟩ := List.cons_eq_cons.mp h
    exact ⟨_, rfl, encodeTick_high s hstage⟩
  | checksumLow =>
    rw [unitsLeft, hstage] at h
    obtain ⟨rfl, rfl⟩ := List.cons_eq_cons.mp h
    exact absurd rfl hmore

/-! ### A frame cut by reset -/

theorem atRest_of_sending {s : State} {r : EncRun} (hbusy : s.busy = true) (henc : s.enc = some r) :
    atRest s = false := by
  simp [atRest, waitsOnSilence, hbusy, henc]

/-- A step of a block that is sending, short of reset and of a presented word. -/
theorem tick_sending {s : State} {r : EncRun} (henc : s.enc = some r) (hrst : (nextMove s).rst = false)
    (hnone : (nextMove s).present = none) : tick s = .next (encodeTick r (environmentActs s)) := by
  rw [tick_of_not_rst hrst, moved_of_not_present hnone]
  exact act_sending henc

/-- Reset after `k` quiet steps of a run with more than `k` units to write leaves the first `k` of them. -/
theorem runSteps_cut {k : Nat} {m : EnvMove} {s : State} {r : EncRun} (hbusy : s.busy = true)
    (henc : s.enc = some r) (hscript : s.script = List.replicate k EnvMove.quiet ++ [m]) (hm : m.rst = true)
    (hleft : k < (unitsLeft r).length) :
    ∃ t, runSteps (k + 1) s = .next t ∧ t.busy = false ∧ t.enc = none ∧ t.txq = s.txq ++ (unitsLeft r).take k ∧
      t.diagLog = s.diagLog := by
  induction k generalizing s r with
  | zero =>
    have hrst : (nextMove s).rst = true := by simp [nextMove, hscript, hm]
    rw [runSteps_succ (atRest_of_sending hbusy henc), tick, if_pos hrst]
    exact ⟨_, rfl, rfl, rfl, by simp, rfl⟩
  | succ k ih =>
    have hquiet : nextMove s = EnvMove.quiet := by simp [nextMove, hscript, List.replicate_succ]
    obtain ⟨u, us, hus⟩ := List.exists_cons_of_length_pos (Nat.zero_lt_of_lt hleft)
    rw [hus, List.length_cons] at hleft
    have hrest : k < us.length := Nat.lt_of_succ_lt_succ hleft
    obtain ⟨r', rfl, hencode⟩ :=
      encodeTick_of_unitsLeft (environmentActs s) hus (List.ne_nil_of_length_pos (Nat.zero_lt_of_lt hrest))
    have htick := tick_sending henc (by rw [hquiet]; rfl) (by rw [hquiet]; rfl)
    obtain ⟨t, hrun, hidle, hoff, htxq, hlog⟩ :=
      ih (s := writeUnit u { environmentActs s with enc := some r' }) hbusy rfl
        (by simp [hscript, List.replicate_succ]) hrest
    refine ⟨t, ?_, hidle, hoff, ?_, hlog⟩
    · rw [runSteps_succ (atRest_of_sending hbusy henc), htick, hencode, andThen_next, hrun]
    · rw [htxq, hus]
      simp [writeUnit]

/-- An accepted SEND runs the encoder on the first bytes of TXP. -/
theorem execSend_accepted {p : Byte} {a b : Half} {s : State} (hidle : s.busy = false)
    (hlen : a.toNat % 256 ≤ s.cfg.maxPayload) :
    execSend p a b s = runOperation (startFrame p (bytesAt s .txp 0 (a.toNat % 256))
      (accept (commandWord opSend 0 p a b) s)) := by
  have haccepted : refuses s.cfg s.busy (commandWord opSend 0 p a b) = false := by
    rw [refuses_commandWord, lengthOperand, lowByte_toNat]
    simp [hidle, hlen, isReservedOp, opSend, opLoadp]
  rw [execSend, perform_accepted haccepted, accept_commandWord]
  simp only [lengthOperand, lowByte_toNat]
  rfl

/-- Settles O54: an accepted SEND is a run of the encoder with `L + 3` units to write, cut after `k` of them. -/
theorem resetCutsTheFrame : Obligations.ResetCutsTheFrame := by
  intro p a b k m s hs hlen hk hm hscript
  have hbytes : bytesAt s .txp 0 (a.toNat % 256) = (List.range (a.toNat % 256)).map fun i => byteAt s .txp i := by
    simp [bytesAt]
  rw [← hbytes]
  set payload := bytesAt s .txp 0 (a.toNat % 256) with hpayload
  have hleft : k < (encodeFrame p payload).length := by rwa [encodeFrame_length, hpayload, bytesAt_length]
  obtain ⟨t, hrun, hidle, hcut⟩ :=
    runSteps_cut (s := startFrame p payload (accept (commandWord opSend 0 p a b) s)) rfl rfl hscript hm hleft
  have hbound : k + 1 ≤ stepBound (startFrame p payload (accept (commandWord opSend 0 p a b) s)) := by
    simp only [stepBound, startFrame_script, accept_script, hscript, List.length_append, List.length_replicate]
    omega
  obtain ⟨j, hj⟩ := Nat.exists_eq_add_of_le hbound
  refine ⟨t, ?_, hidle, hcut⟩
  rw [exec, execSend_accepted hs.notBusy hlen, runOperation, hj]
  exact runSteps_more hrun (atRest_of_idle hidle) j

end Sys2Proof.Machine
end

section
/-! SUPPORT. The decoder and the encoder are inverse (spec 30_encoding.md R91 to R101, R111). -/

namespace Sys2Proof

open Machine

/-! ### Units -/

theorem markUnit_stripUnit {u : LineUnit} (h : isMarked u = true) : markUnit (stripUnit u) = u := by
  apply BitVec.eq_of_getLsbD_eq
  intro i hi
  have h8 : u[8] = true := h
  rw [markUnit, stripUnit, BitVec.getLsbD_append, BitVec.getLsbD_extractLsb']
  interval_cases i <;> simp [h8]

theorem plainUnit_stripUnit {u : LineUnit} (h : isMarked u = false) : plainUnit (stripUnit u) = u := by
  apply BitVec.eq_of_getLsbD_eq
  intro i hi
  have h8 : u[8] = false := h
  rw [plainUnit, stripUnit, BitVec.getLsbD_append, BitVec.getLsbD_extractLsb']
  interval_cases i <;> simp [h8]

theorem decodeUnit_marked {u : LineUnit} (h : isMarked u = true) : decodeUnit u = .start (stripUnit u) := if_pos h

theorem decodeUnit_plain {u : LineUnit} (h : isMarked u = false) : decodeUnit u = .data (stripUnit u) :=
  if_neg (Bool.not_eq_true _ ▸ h)

theorem encode_decodeUnit (u : LineUnit) : encode (decodeUnit u) = .unit u := by
  cases h : isMarked u with
  | true => rw [decodeUnit_marked h, encode, markUnit_stripUnit h]
  | false => rw [decodeUnit_plain h, encode, plainUnit_stripUnit h]

theorem stripUnit_eq_ofNat (u : LineUnit) : stripUnit u = BitVec.ofNat 8 u.toNat := by
  apply BitVec.eq_of_toNat_eq
  simp [stripUnit]

/-- Settles O3. -/
theorem unitHasOneMeaning : Obligations.UnitHasOneMeaning := by
  intro u
  rw [← stripUnit_eq_ofNat]
  exact ⟨encode_decodeUnit u, decodeUnit_marked, decodeUnit_plain⟩

/-! ### Frames -/

theorem be16Unpack_be16Pack (v : Half) : be16Unpack (highByte v) (lowByte v) = v := by
  apply BitVec.eq_of_getLsbD_eq
  intro i hi
  rw [be16Unpack, highByte, lowByte, BitVec.getLsbD_append, BitVec.getLsbD_extractLsb', BitVec.getLsbD_extractLsb']
  interval_cases i <;> simp

/-- The bytes of a frame are split where they were put together. -/
theorem decodeBytes_frame (p : Byte) (d : List Byte) (ck : Half) :
    decodeBytes (p :: (d ++ be16Pack ck)) = .ok (frameInstr p d ck) := by
  rw [decodeBytes_of_length_ge (by simp [be16Pack])]
  simp [be16Pack, be16Unpack_be16Pack]

theorem decodeFrame_frameUnits (p : Byte) (d : List Byte) (ck : Half) :
    decodeFrame (frameUnits p d ck) = .ok (frameInstr p d ck) := by
  have hstrip : (frameUnits p d ck).map stripUnit = p :: (d ++ be16Pack ck) := by
    simp [frameUnits, be16Pack, Function.comp_def]
  rw [← decodeBytes_frame, ← hstrip]
  simp [decodeFrame, frameUnits]

/-- A payload of a length without a row of its own stands in a FRAME term. -/
theorem frameInstr_of_noOwnRow {p : Byte} {d : List Byte} {ck : Half} (h : hasOwnFrameRow d.length = false) :
    frameInstr p d ck = .frame p d ck := by
  unfold frameInstr
  split
  · cases h
  · cases h
  · rfl

theorem frameInstr_requestPayload (p : Byte) (r a ck : Half) :
    frameInstr p (requestPayload r a) ck = .reqFrame p r a ck := by
  simp [requestPayload, be16Pack, frameInstr, be16Unpack_be16Pack]

theorem frameInstr_be16Pack (p : Byte) (v ck : Half) : frameInstr p (be16Pack v) ck = .rspFrame p v ck := by
  simp [be16Pack, frameInstr, be16Unpack_be16Pack]

/-! ### Command words -/

/-- The word `w` has the row of `i`. -/
structure IsRowOf (w : CmdWord) (i : Instr) : Prop where
  encodes : encode i = .command w
  wellFormed : ∀ c : Params, i.wellFormed c = true

theorem lowestRsvdBit_iff {r : Nibble} {k : Nat} :
    lowestRsvdBit r k = true ↔ r.getLsbD k = true ∧ ∀ j < k, ¬ r.getLsbD j = true := by
  simp [lowestRsvdBit]

/-- A row that a word is given when `rsvd = 0`. -/
theorem isRowOf_plain {w : CmdWord} {op : Nibble} {i : Instr} (hr : cmdRsvd w = 0) (ho : cmdOp w = op)
    (hi : encode i = .command (commandWord op 0 (cmdPort w) (cmdA w) (cmdB w)))
    (hwf : ∀ c : Params, i.wellFormed c = true) : IsRowOf w i :=
  ⟨by rw [hi, commandWord_of_rsvd_zero hr ho], hwf⟩

/-- A row that a word is given by its `rsvd` field. -/
theorem isRowOf_rsvd {w : CmdWord} {k : Nat} {i : Instr} (hset : (cmdRsvd w).getLsbD k = true)
    (hclear : ∀ j < k, ¬ (cmdRsvd w).getLsbD j = true)
    (hi : encode i = .command (commandWord (cmdOp w) (cmdRsvd w) (cmdPort w) (cmdA w) (cmdB w)))
    (hwf : ∀ c : Params, i.wellFormed c = lowestRsvdBit (cmdRsvd w) k) : IsRowOf w i :=
  ⟨by rw [hi, commandWord_fields], fun c => (hwf c).trans (lowestRsvdBit_iff.mpr ⟨hset, hclear⟩)⟩

/-- The tests of the decoder on `rsvd`, then on `op`, each settle the row they choose. -/
theorem isRowOf_decodeCommand (w : CmdWord) : IsRowOf w (decodeCommand w) := by
  refine iteInduction (fun h => isRowOf_rsvd h (by simp) rfl fun _ => rfl) fun r0 => ?_
  refine iteInduction (fun h => isRowOf_rsvd h (fun j hj => by interval_cases j; exact r0) rfl fun _ => rfl)
    fun r1 => ?_
  refine iteInduction (fun h => isRowOf_rsvd h (fun j hj => by interval_cases j <;> assumption) rfl fun _ => rfl)
    fun r2 => ?_
  refine iteInduction (fun h => isRowOf_rsvd h (fun j hj => by interval_cases j <;> assumption) rfl fun _ => rfl)
    fun r3 => ?_
  have hr := rsvd_eq_zero r0 r1 r2 r3
  refine iteInduction (fun ho => isRowOf_plain hr ho rfl fun _ => rfl) fun h0 => ?_
  refine iteInduction (fun ho => isRowOf_plain hr ho rfl fun _ => rfl) fun h1 => ?_
  refine iteInduction (fun ho => isRowOf_plain hr ho rfl fun _ => rfl) fun h2 => ?_
  refine iteInduction (fun ho => isRowOf_plain hr ho rfl fun _ => rfl) fun h3 => ?_
  refine iteInduction (fun ho => isRowOf_plain hr ho rfl fun _ => rfl) fun h4 => ?_
  refine iteInduction (fun ho => isRowOf_plain hr ho rfl fun _ => rfl) fun h5 => ?_
  refine iteInduction (fun ho => isRowOf_plain hr ho rfl fun _ => rfl) fun h6 => ?_
  refine iteInduction (fun ho => isRowOf_plain hr ho rfl fun _ => rfl) fun h7 => ?_
  refine iteInduction (fun ho => isRowOf_plain hr ho rfl fun _ => rfl) fun h8 => ?_
  refine iteInduction (fun ho => isRowOf_plain hr ho rfl fun _ => rfl) fun h9 => ?_
  refine iteInduction (fun ho => isRowOf_plain hr ho rfl fun _ => rfl) fun hA => ?_
  refine iteInduction (fun ho => isRowOf_plain hr ho rfl fun _ => rfl) fun hB => ?_
  refine iteInduction (fun ho => isRowOf_plain hr ho rfl fun _ => rfl) fun hC => ?_
  refine iteInduction (fun ho => isRowOf_plain hr ho rfl fun _ => rfl) fun hD => ?_
  refine iteInduction (fun ho => isRowOf_plain hr ho rfl fun _ => rfl) fun hE => ?_
  refine isRowOf_plain hr (op_eq_last _ ?_) rfl fun _ => rfl
  simp only [List.mem_cons, not_or]
  exact ⟨h0, h1, h2, h3, h4, h5, h6, h7, h8, h9, hA, hB, hC, hD, hE, List.not_mem_nil⟩

/-- Settles O2. -/
theorem commandWordHasOneMeaning : Obligations.CommandWordHasOneMeaning :=
  fun w => ⟨(isRowOf_decodeCommand w).encodes, (isRowOf_decodeCommand w).wellFormed⟩

section
variable {op r : Nibble} {p : Byte} {a b : Half}

theorem decodeCommand_rsvdBit0 (h : lowestRsvdBit r 0 = true) :
    decodeCommand (commandWord op r p a b) = .reservedRsvdBit0 op r p a b := by
  obtain ⟨hset, -⟩ := lowestRsvdBit_iff.mp h
  simp only [decodeCommand, cmdOp_commandWord, cmdRsvd_commandWord, cmdPort_commandWord, cmdA_commandWord,
    cmdB_commandWord]
  exact if_pos hset

theorem decodeCommand_rsvdBit1 (h : lowestRsvdBit r 1 = true) :
    decodeCommand (commandWord op r p a b) = .reservedRsvdBit1 op r p a b := by
  obtain ⟨hset, hclear⟩ := lowestRsvdBit_iff.mp h
  simp only [decodeCommand, cmdOp_commandWord, cmdRsvd_commandWord, cmdPort_commandWord, cmdA_commandWord,
    cmdB_commandWord]
  exact (if_neg (hclear 0 (by decide))).trans (if_pos hset)

theorem decodeCommand_rsvdBit2 (h : lowestRsvdBit r 2 = true) :
    decodeCommand (commandWord op r p a b) = .reservedRsvdBit2 op r p a b := by
  obtain ⟨hset, hclear⟩ := lowestRsvdBit_iff.mp h
  simp only [decodeCommand, cmdOp_commandWord, cmdRsvd_commandWord, cmdPort_commandWord, cmdA_commandWord,
    cmdB_commandWord]
  exact (if_neg (hclear 0 (by decide))).trans <| (if_neg (hclear 1 (by decide))).trans (if_pos hset)

theorem decodeCommand_rsvdBit3 (h : lowestRsvdBit r 3 = true) :
    decodeCommand (commandWord op r p a b) = .reservedRsvdBit3 op r p a b := by
  obtain ⟨hset, hclear⟩ := lowestRsvdBit_iff.mp h
  simp only [decodeCommand, cmdOp_commandWord, cmdRsvd_commandWord, cmdPort_commandWord, cmdA_commandWord,
    cmdB_commandWord]
  exact (if_neg (hclear 0 (by decide))).trans <| (if_neg (hclear 1 (by decide))).trans <|
    (if_neg (hclear 2 (by decide))).trans (if_pos hset)

end

/-- Settles O1: a unit by its marker, a frame by the length of its payload, a word by `rsvd` and `op`. -/
theorem decodeUndoesEncode : Obligations.DecodeUndoesEncode := by
  intro c i hwf
  cases i with
  | start d => simp [encode, decode, decodeUnit]
  | data d => simp [encode, decode, decodeUnit]
  | frame p d ck =>
    have hrow : hasOwnFrameRow d.length = false := by
      simp only [Instr.wellFormed, Bool.and_eq_true, Bool.not_eq_true'] at hwf
      obtain ⟨⟨-, hrow⟩, -⟩ := hwf
      exact hrow
    exact (decodeFrame_frameUnits p d ck).trans (congrArg _ (frameInstr_of_noOwnRow hrow))
  | reqFrame p r a ck => exact (decodeFrame_frameUnits ..).trans (congrArg _ (frameInstr_requestPayload p r a ck))
  | rspFrame p v ck => exact (decodeFrame_frameUnits ..).trans (congrArg _ (frameInstr_be16Pack p v ck))
  | reservedRsvdBit0 op r p a b => exact congrArg _ (decodeCommand_rsvdBit0 hwf)
  | reservedRsvdBit1 op r p a b => exact congrArg _ (decodeCommand_rsvdBit1 hwf)
  | reservedRsvdBit2 op r p a b => exact congrArg _ (decodeCommand_rsvdBit2 hwf)
  | reservedRsvdBit3 op r p a b => exact congrArg _ (decodeCommand_rsvdBit3 hwf)
  | _ => simp [encode, decode, decodeCommand, opSetTimeout, opQuery, opControl, opScan, opGetRevision, opRecvReq,
      opSendRsp, opSend, opReceive, opLoadp]

/-- Settles O4: the decoder evaluated on the written-out words. -/
theorem writtenOutWordsDecode : Obligations.WrittenOutWordsDecode := by
  unfold Obligations.WrittenOutWordsDecode
  decide

end Sys2Proof
end

section
/-! SUPPORT. Reserved command words (spec 30_encoding.md R103, 60_exceptions.md R243). -/

namespace Sys2Proof.Machine

open Sys2Proof.Safety

/-- A refusal shows the host the fields of the assembled word and changes nothing else. -/
theorem refuse_commandWord (op r : Nibble) (p : Byte) (a b : Half) (s : State) :
    refuse (commandWord op r p a b) s = onlyRefused (op ++ r ++ p) s := by
  rw [refuse_eq, refusedData_commandWord, onlyRefused]

theorem isReservedOp_iff {op : Nibble} :
    isReservedOp op = true ↔ op ∈ [0x0#4, 0xB#4, 0xC#4, 0xD#4, 0xE#4, 0xF#4] := by
  simp [isReservedOp, or_assoc]

/-- Settles O5. -/
theorem reservedWordsAreRefused : Obligations.ReservedWordsAreRefused := by
  intro w s h
  rw [exec_decodeCommand, perform_reserved _ _ (h.imp_right isReservedOp_iff.mpr), refuse_eq, refusedData, onlyRefused]

/-- Settles O6. -/
theorem reservedRowsComplete : Obligations.ReservedRowsComplete := by
  intro op rsvd p a b s
  have hrefused (op r : Nibble) :
      Host.Outcome.next (refuse (commandWord op r p a b) s) =
        (.next (onlyRefused (op ++ r ++ p) s) : Out) := by
    rw [refuse_commandWord]
  exact ⟨hrefused _ _, hrefused _ _, hrefused _ _, hrefused _ _, hrefused _ _, hrefused _ _, hrefused _ _,
    hrefused _ _, hrefused _ _, hrefused _ _⟩

end Sys2Proof.Machine
end

section
/-! SUPPORT. A frame that verifies (spec 42_decode.md R155 to R159) and what the operation that collected it makes of
it: RECV_REQ of a request frame (45_device.md R221), a request in its wait loop of a response frame (44_controller.md
R197). -/

namespace Sys2Proof.Machine

open Sys2Proof.Safety

/-! ### The latched result -/

/-- `s` when a frame that verifies has been latched and the decode machine has ended OK (R157 to R159). -/
def verified (p : Byte) (d : List Byte) (s : State) : State :=
  { s with
    cursor := 0
    cp := .dOff
    rxKind := .ok
    rxPort := p
    rxLen := BitVec.ofNat 8 d.length
    rxp := s.rxp.writeList 0 d
    diagLog := s.diagLog ++ [.frameRx (p :: (d ++ be16Pack (checksum p d))) (checksum p d) (checksum p d)] }

theorem finishFrame_verified {p : Byte} {d : List Byte} {s : State} (h : d.length ≤ s.cfg.maxPayload) :
    finishFrame p d (checksum p d) s = .next (deliver .ok (verified p d s)) := by
  rw [finishFrame, if_pos rfl, latchFrame_of_fits (by exact h), andThen_next]
  rfl

section
variable (p : Byte) (d : List Byte) (s : State)

theorem byteAt_verified_payload {i : Nat} (h : i < d.length) : byteAt (verified p d s) .rxp i = d[i] := by
  have hread := Memory.read_writeList_same s.rxp 0 d i h
  rw [Nat.zero_add] at hread
  exact byteAt_of_read hread

theorem byteAt_verified_beyond {i : Nat} (h : d.length ≤ i) :
    byteAt (verified p d s) .rxp i = byteAt s .rxp i :=
  byteAt_congr (Memory.read_writeList_other _ _ _ _ (.inr (by omega))) rfl

end

/-! ### A request frame for RECV_REQ -/

/-- RECV_REQ takes the request that RXP holds, high bytes first. -/
theorem recvReqResult_ok {s : State} {r a : Half} (hlen : s.rxLen = 4)
    (h0 : byteAt s .rxp 0 = highByte r) (h1 : byteAt s .rxp 1 = lowByte r)
    (h2 : byteAt s .rxp 2 = highByte a) (h3 : byteAt s .rxp 3 = lowByte a) :
    recvReqResult .ok s = { s with
      reqPort := s.rxPort, reqRegister := r, reqParameter := a, reqOk := true, busy := false } := by
  rw [recvReqResult, if_pos rfl, if_pos hlen, h0, h1, h2, h3, be16Unpack_be16Pack, be16Unpack_be16Pack]
  rfl

/-- Settles O17. -/
theorem requestFrameIsTaken : Obligations.RequestFrameIsTaken := by
  intro p r a s ⟨hfits, _⟩ hop
  have hbyte {i : Nat} (hi : i < 4) : byteAt (verified p (requestPayload r a) s) .rxp i = (requestPayload r a)[i]'hi :=
    byteAt_verified_payload p (requestPayload r a) s hi
  have h0 : byteAt (verified p (requestPayload r a) s) .rxp 0 = highByte r := hbyte (by decide)
  have h1 : byteAt (verified p (requestPayload r a) s) .rxp 1 = lowByte r := hbyte (by decide)
  have h2 : byteAt (verified p (requestPayload r a) s) .rxp 2 = highByte a := hbyte (by decide)
  have h3 : byteAt (verified p (requestPayload r a) s) .rxp 3 = lowByte a := hbyte (by decide)
  have hexec : exec (.reqFrame p r a (checksum p (requestPayload r a))) s =
      .next (recvReqResult .ok (verified p (requestPayload r a) s)) :=
    (finishFrame_verified (d := requestPayload r a) hfits).trans (congrArg _ (deliver_recvReq _ hop))
  rw [hexec, recvReqResult_ok rfl h0 h1 h2 h3]
  exact ⟨_, rfl, rfl, rfl, rfl, rfl, rfl, rfl, rfl, rfl, rfl, rfl, h0, h1, h2, h3, rfl,
    fun _ hi => byteAt_verified_beyond p (requestPayload r a) s hi, fun _ => rfl, rfl, rfl,
    ⟨rfl, rfl, rfl, rfl, rfl, rfl, rfl⟩, ⟨rfl, rfl, fun _ => rfl⟩, ⟨rfl, rfl, rfl, rfl, rfl, rfl⟩⟩

/-! ### A response frame for a request -/

/-- QUERY keeps the value of a request that succeeded, CONTROL only that it did. -/
theorem commandResult_success {s : State} (v : Half) (h : s.curOp = opQuery ∨ s.curOp = opControl) :
    ∃ x y, commandResult (.success v) s = { s with qValue := x, cOk := y, busy := false } ∧
      (s.curOp = opQuery → x = v ∧ y = s.cOk) ∧ (s.curOp = opControl → y = true ∧ x = s.qValue) := by
  obtain hop | hop := h
  · exact ⟨v, s.cOk, if_pos hop, fun _ => ⟨rfl, rfl⟩, fun hc => absurd (hop.symm.trans hc) (by decide)⟩
  · have hne : ¬ s.curOp = opQuery := hop ▸ (by decide)
    exact ⟨s.qValue, true, (if_neg hne).trans (if_pos hop), fun hq => absurd hq hne, fun _ => ⟨rfl, rfl⟩⟩

/-- The value that resolves a request is the one that RXP holds, high byte first. -/
theorem resolveOk_success {s : State} {v : Half} (hlen : s.rxLen = 2) (h0 : byteAt s .rxp 0 = highByte v)
    (h1 : byteAt s .rxp 1 = lowByte v) : resolveOk s = commandResult (.success v) { s with ctl := .idle } := by
  rw [resolveOk, if_pos hlen, h0, h1, be16Unpack_be16Pack, concludeRequest_eq]

/-- Settles O18. -/
theorem responseFrameResolvesRequest : Obligations.ResponseFrameResolvesRequest := by
  intro q v s ⟨hfits, _⟩ _ hop
  have hbyte {i : Nat} (hi : i < 2) : byteAt (verified q (be16Pack v) s) .rxp i = (be16Pack v)[i]'hi :=
    byteAt_verified_payload q (be16Pack v) s hi
  have h0 : byteAt (verified q (be16Pack v) s) .rxp 0 = highByte v := hbyte (by decide)
  have h1 : byteAt (verified q (be16Pack v) s) .rxp 1 = lowByte v := hbyte (by decide)
  have hrequest : isRequestOp (verified q (be16Pack v) s).curOp = true := by
    obtain h | h := hop <;> exact congrArg isRequestOp h
  have hexec : exec (.rspFrame q v (checksum q (be16Pack v))) s =
      .next (commandResult (.success v) { verified q (be16Pack v) s with ctl := .idle }) := by
    rw [← resolveOk_success (s := verified q (be16Pack v) s) rfl h0 h1]
    exact (finishFrame_verified (Nat.le_trans (by simp [be16Pack]) hfits)).trans
      (congrArg _ (deliver_request .ok hrequest))
  obtain ⟨x, y, hresult, hquery, hcontrol⟩ :=
    commandResult_success (s := { verified q (be16Pack v) s with ctl := .idle }) v hop
  rw [hexec, hresult]
  exact ⟨_, rfl, hquery, hcontrol, rfl, rfl, rfl, rfl, rfl, rfl, rfl, rfl, rfl, rfl, rfl, rfl, h0, h1, rfl,
    fun _ hi => byteAt_verified_beyond q (be16Pack v) s hi, fun _ => rfl, rfl, rfl, rfl, ⟨rfl, rfl, rfl, rfl⟩,
    ⟨rfl, rfl, fun _ => rfl⟩⟩

end Sys2Proof.Machine
end

section
/-! SUPPORT. A run of the encoder to its end, whatever the environment does short of reset (spec 41_encode.md R131,
R132). -/

namespace Sys2Proof.Machine

open Sys2Proof.Safety

/-! ### The event of a run -/

/-- The checksum that a run of the encoder ends with. -/
def finalSum (r : EncRun) : Half :=
  match r.stage with
  | .portUnit => checksum r.port r.payload
  | .payloadUnit b rest => (b :: rest).foldl checksumAdd r.acc
  | .checksumHigh => r.acc
  | .checksumLow => r.acc

/-- The FRAME_TX event that a run of the encoder ends with. -/
def frameEvent (r : EncRun) : DiagEvent := .frameTx r.port r.payload (finalSum r)

theorem finalSum_stageFor (p : Byte) (d todo : List Byte) (acc : Half) :
    finalSum { port := p, payload := d, stage := stageFor todo, acc := acc } = todo.foldl checksumAdd acc := by
  cases todo <;> rfl

/-- A run that goes on goes on to the same event. -/
theorem frameEvent_of_encodeTick {r r' : EncRun} {s : State} (h : (encodeTick r s).enc = some r') :
    frameEvent r' = frameEvent r := by
  cases hstage : r.stage with
  | portUnit =>
    rw [encodeTick_port s hstage] at h
    cases h
    rw [frameEvent, finalSum_stageFor, frameEvent, finalSum, hstage, checksum]
  | payloadUnit b rest =>
    rw [encodeTick_payload s hstage] at h
    cases h
    rw [frameEvent, finalSum_stageFor, frameEvent, finalSum, hstage]
    rfl
  | checksumHigh =>
    rw [encodeTick_high s hstage] at h
    cases h
    simp only [frameEvent, finalSum, hstage]
  | checksumLow =>
    rw [encodeTick_low s hstage] at h
    unfold frameSent at h
    split at h <;> cases h

/-- The last unit of a run is the low byte of its checksum. -/
theorem stage_of_unitsLeft_singleton {r : EncRun} {u : LineUnit} (h : unitsLeft r = [u]) :
    r.stage = .checksumLow ∧ u = plainUnit (lowByte r.acc) := by
  unfold unitsLeft at h
  split at h
  · simpa [encodeFrame_length] using congrArg List.length h
  · simpa [unitsAfter] using congrArg List.length h
  · simpa [unitsAfter] using congrArg List.length h
  · exact ⟨‹_›, (List.singleton_inj.mp h).symm⟩

theorem unitsLeft_ne_nil (r : EncRun) : unitsLeft r ≠ [] := by
  unfold unitsLeft
  split <;> simp [encodeFrame, frameUnits, unitsAfter]

/-! ### The end of a run -/

/-- `s` in the environment of `e`. -/
def inEnvironment (e s : State) : State :=
  { s with script := e.script, rxq := e.rxq, now := e.now, diagLog := e.diagLog, refusedPulses := e.refusedPulses }

/-- Before the block's action only the environment and the record of refusals change. -/
theorem moved_eq_inEnvironment (s : State) : ∃ e, moved s = inEnvironment e s := by
  refine ⟨moved s, ?_⟩
  unfold moved refusePresented
  split <;> rfl

/-- `s` when its encoder has written `us` and ended the operation, in the environment of `e`. -/
def afterFrame (us : List LineUnit) (e s : State) : State :=
  { inEnvironment e s with txq := s.txq ++ us, enc := none, busy := false }

theorem tick_encodes {s : State} {r : EncRun} (henc : s.enc = some r) (hreset : NoReset s) :
    tick s = .next (encodeTick r (moved s)) := by
  rw [tick_of_not_rst (nextMove_rst hreset)]
  refine act_sending ?_
  obtain ⟨e, hmoved⟩ := moved_eq_inEnvironment s
  rw [hmoved]
  exact henc

theorem noReset_moved {s : State} (hreset : NoReset s) : NoReset (moved s) :=
  noReset_tail hreset (congrArg State.script (moved_untouched s) :)

/-- One unit a step, and the event with the last one: so SEND and SEND_RSP run to their end. -/
theorem runSteps_sends {s : State} {r : EncRun} (hbusy : s.busy = true) (henc : s.enc = some r)
    (hop : isRequestOp s.curOp = false) (hreset : NoReset s) :
    ∃ e, runSteps (unitsLeft r).length s = .next (afterFrame (unitsLeft r) e s) ∧
      e.diagLog.getLast? = some (frameEvent r) := by
  induction hus : unitsLeft r generalizing r s with
  | nil => exact absurd hus (unitsLeft_ne_nil r)
  | cons u us ih =>
    rw [List.length_cons, runSteps_succ (atRest_of_sending hbusy henc), tick_encodes henc hreset, andThen_next]
    have hmovedReset := noReset_moved hreset
    obtain ⟨e, hmoved⟩ := moved_eq_inEnvironment s
    rw [hmoved] at hmovedReset ⊢
    by_cases hlast : us = []
    · subst hlast
      obtain ⟨hstage, rfl⟩ := stage_of_unitsLeft_singleton hus
      refine ⟨emit (frameEvent r) e, ?_, by simp⟩
      have hevent : frameEvent r = .frameTx r.port r.payload r.acc := by simp [frameEvent, finalSum, hstage]
      rw [encodeTick_low _ hstage, frameSent_other (by exact hop), hevent]
      rfl
    · obtain ⟨r', rfl, hencode⟩ := encodeTick_of_unitsLeft (inEnvironment e s) hus hlast
      have hevent : frameEvent r' = frameEvent r := frameEvent_of_encodeTick (by rw [hencode]; rfl)
      obtain ⟨e', hrun, hlog⟩ := ih (s := writeUnit u { inEnvironment e s with enc := some r' }) hbusy rfl hop
        hmovedReset rfl
      refine ⟨e', ?_, hevent ▸ hlog⟩
      rw [hencode, hrun]
      simp [afterFrame, inEnvironment]

/-! ### SEND and SEND_RSP -/

theorem runOperation_of_runSteps {k : Nat} {s t : State} (hk : k ≤ stepBound s) (h : runSteps k s = .next t)
    (hrest : atRest t = true) : runOperation s = .next t := by
  obtain ⟨j, hj⟩ := Nat.exists_eq_add_of_le hk
  rw [runOperation, hj]
  exact runSteps_more h hrest j

/-- An accepted command whose first action starts the encoder on a frame writes that frame and ends. -/
theorem perform_sends {w : CmdWord} {first : State → State} {s : State} {p : Byte} {d : List Byte}
    (haccepted : refuses s.cfg s.busy w = false) (hop : isRequestOp (cmdOp w) = false) (hreset : NoReset s)
    (hlen : d.length ≤ 255) (hfirst : first (accept w s) = startFrame p d (accept w s)) :
    ∃ e, perform w first s = .next (afterFrame (encodeFrame p d) e (accept w s)) ∧
      e.diagLog.getLast? = some (.frameTx p d (checksum p d)) := by
  obtain ⟨e, hrun, hlog⟩ := runSteps_sends (s := startFrame p d (accept w s)) rfl rfl hop hreset
  refine ⟨e, ?_, hlog⟩
  rw [perform_accepted haccepted, hfirst]
  refine runOperation_of_runSteps ?_ hrun (atRest_of_idle rfl)
  have hunits : (encodeFrame p d).length ≤ 300 := by rw [encodeFrame_length]; omega
  exact hunits.trans (Nat.le_add_left _ _)

/-- What an accepted command leaves that has sent its frame, from the idle block on. -/
theorem afterFrame_accept {us : List LineUnit} {e s t : State} {op : Nibble} {p : Byte} {a b : Half}
    (hs : Quiescent s) (ht : t = afterFrame us e (accept (commandWord op 0 p a b) s)) :
    Quiescent t ∧ Latched op p a b t ∧ KeepsReceive s t ∧ KeepsChannel s t ∧ KeepsController s t ∧
      KeepsDevice s t ∧ KeepsRequest s t := by
  rw [accept_commandWord] at ht
  subst ht
  exact ⟨⟨rfl, hs.off, hs.idle, rfl⟩, ⟨rfl, rfl, rfl, rfl⟩,
    ⟨rfl, rfl, rfl, fun _ => rfl, rfl, rfl, rfl, fun _ => rfl⟩, ⟨rfl, rfl, fun _ => rfl⟩,
    ⟨rfl, rfl, rfl, rfl, rfl, rfl, rfl⟩, ⟨rfl, rfl, rfl, rfl⟩, ⟨rfl, rfl, rfl, rfl, rfl, rfl⟩⟩

/-- Settles O24: an accepted SEND_RSP is a run of the encoder on its two bytes. -/
theorem sendRspWritesItsFrame : Obligations.SendRspWritesItsFrame := by
  intro p a b s hs hreset
  have haccepted : refuses s.cfg s.busy (commandWord opSendRsp 0 p a b) = false :=
    (refuses_plain _ _ _ _ _ _ rfl (by decide) (by decide)).trans hs.notBusy
  have hop : isRequestOp (cmdOp (commandWord opSendRsp 0 p a b)) = false := by rw [cmdOp_commandWord]; rfl
  obtain ⟨e, hrun, hlog⟩ := perform_sends (p := p) (d := be16Pack b)
    (first := fun s => startFrame s.opPort (be16Pack s.opB) s) haccepted hop hreset (by simp [be16Pack])
    (by rw [accept_commandWord])
  exact ⟨_, hrun, rfl, hlog, afterFrame_accept hs rfl⟩

end Sys2Proof.Machine
end

section
/-! SUPPORT. Once an operation has begun, nothing reads the operand fields of the latch, but for `op_port`, which the
later sub-queries of GET_REVISION read (spec 30_encoding.md R100, R102, 44_controller.md R203). -/

namespace Sys2Proof.Machine

open Sys2Proof.Safety

/-! ### Other operands in the latch -/

/-- `s` with other `op_a` and `op_b` in the latch. -/
def withOperands (a b : Half) (s : State) : State := { s with opA := a, opB := b }

/-- `s` with other operands in the latch, but for those that the operation of `cur_op` still reads once it has begun. -/
def withLatch (p : Byte) (a b : Half) (s : State) : State :=
  { withOperands a b s with opPort := if isRequestOp s.curOp then s.opPort else p }

section
variable {p : Byte} {a b : Half} {s : State} {g : State → State}

theorem withLatch_request (h : isRequestOp s.curOp = true) : withLatch p a b s = withOperands a b s := by
  rw [withLatch, if_pos h]
  rfl

theorem forgetOperands_mapNext_withLatch (o : Out) :
    forgetOperands (mapNext (withLatch p a b) o) = forgetOperands o := by
  cases o <;> rfl

/-! ### Functions that go with a change of the state -/

/-- A change of the state that the test does not see goes with the choice. -/
theorem commute_ite {c : State → Prop} [∀ s, Decidable (c s)] {f h : State → State} (hc : ∀ s, c (g s) = c s)
    (hf : Function.Commute f g) (hh : Function.Commute h g) :
    Function.Commute (fun s => if c s then f s else h s) g := by
  intro s
  simp only [hc]
  split
  · exact hf s
  · exact hh s

/-- The same of functions that may stop. -/
theorem semiconj_ite {c : State → Prop} [∀ s, Decidable (c s)] {φ ψ : State → Out} (hc : ∀ s, c (g s) = c s)
    (hφ : Function.Semiconj φ g (mapNext g)) (hψ : Function.Semiconj ψ g (mapNext g)) :
    Function.Semiconj (fun s => if c s then φ s else ψ s) g (mapNext g) := by
  intro s
  simp only [hc]
  split
  · exact hφ s
  · exact hψ s

theorem semiconj_next {f : State → State} (hf : Function.Commute f g) :
    Function.Semiconj (fun s => (.next (f s) : Out)) g (mapNext g) :=
  fun s => congrArg Host.Outcome.next (hf s)

theorem semiconj_andThen {φ ψ : State → Out} (hφ : Function.Semiconj φ g (mapNext g))
    (hψ : Function.Semiconj ψ g (mapNext g)) :
    Function.Semiconj (fun s => andThen (φ s) ψ) g (mapNext g) := by
  intro s
  simp only [hφ s]
  cases φ s with
  | next t => exact hψ t
  | fault r => rfl
  | refused r => rfl

/-! ### The controller -/

theorem queryResult_withOperands (r : Resolution) : Function.Commute (queryResult r) (withOperands a b) := by
  cases r <;> exact fun _ => rfl

theorem controlResult_withOperands (r : Resolution) : Function.Commute (controlResult r) (withOperands a b) := by
  cases r <;> exact fun _ => rfl

theorem scanResult_withOperands (r : Resolution) : Function.Commute (scanResult r) (withOperands a b) := by
  cases r with
  | success v =>
    intro s
    have hcfg : (withOperands a b s).cfg = s.cfg := rfl
    simp only [scanResult, hcfg]
    split <;> rfl
  | _ => exact fun _ => rfl

theorem revisionResult_withOperands (r : Resolution) : Function.Commute (revisionResult r) (withOperands a b) := by
  cases r with
  | success v =>
    intro s
    have hidx : (withOperands a b s).revIdx = s.revIdx := rfl
    simp only [revisionResult, hidx]
    split <;> rfl
  | _ => exact fun _ => rfl

theorem commandResult_withOperands (r : Resolution) : Function.Commute (commandResult r) (withOperands a b) :=
  commute_ite (fun _ => rfl) (queryResult_withOperands r) <|
    commute_ite (fun _ => rfl) (controlResult_withOperands r) <|
      commute_ite (fun _ => rfl) (scanResult_withOperands r) (revisionResult_withOperands r)

theorem concludeRequest_withOperands (r : Resolution) : Function.Commute (concludeRequest r) (withOperands a b) :=
  fun s => commandResult_withOperands r { s with ctl := .idle }

theorem resolveOk_withOperands : Function.Commute resolveOk (withOperands a b) :=
  commute_ite (fun _ => rfl)
    (fun s => concludeRequest_withOperands (.success (be16Unpack (byteAt s .rxp 0) (byteAt s .rxp 1))) s)
    fun s => concludeRequest_withOperands .badLength (emitFail .badLength (s.rxLen.setWidth 16) s)

theorem requestOutcome_withOperands (k : Kind) : Function.Commute (requestOutcome k) (withOperands a b) := by
  cases k with
  | noData => exact fun _ => rfl
  | ok => exact resolveOk_withOperands
  | _ => exact concludeRequest_withOperands _

theorem pollDeadline_withOperands : Function.Commute pollDeadline (withOperands a b) :=
  commute_ite (fun _ => rfl) (fun s => concludeRequest_withOperands .timeout (emit .timeoutEvt s)) fun _ => rfl

theorem controllerTick_withOperands : Function.Commute controllerTick (withOperands a b) := by
  intro s
  have hctl : (withOperands a b s).ctl = s.ctl := rfl
  cases hs : s.ctl with
  | idle => simp only [controllerTick, hctl, hs]; rfl
  | sent => simpa only [controllerTick, hctl, hs] using pollDeadline_withOperands s
  | resolved r =>
    simp only [controllerTick, leaveResolved, hctl, hs]
    exact commandResult_withOperands r { s with ctl := .idle }

/-- A function of a request that does not read `op_a` and `op_b`, and leaves the command in progress what it is, goes
with a change of the latch. -/
theorem withLatch_of_request {f : State → State} (hf : Function.Commute f (withOperands a b))
    (hop : (f s).curOp = s.curOp) (h : isRequestOp s.curOp = true) :
    f (withLatch p a b s) = withLatch p a b (f s) := by
  have hop' : isRequestOp (f s).curOp = true := hop.symm ▸ h
  rw [withLatch_request h, withLatch_request hop', hf s]

theorem curOp_of_untouched {s t : State} (h : untouched t = untouched s) : t.curOp = s.curOp :=
  (congrArg State.curOp h :)

theorem betweenAttempts_withLatch : Function.Commute betweenAttempts (withLatch p a b) := by
  intro s
  have hop : (withLatch p a b s).curOp = s.curOp := rfl
  simp only [betweenAttempts, hop]
  split
  · rename_i h
    exact withLatch_of_request controllerTick_withOperands (curOp_of_untouched (controllerTick_untouched h)) h
  · rfl

/-! ### The decode machine -/

theorem recvReqResult_withLatch (k : Kind) : Function.Commute (recvReqResult k) (withLatch p a b) :=
  commute_ite (fun _ => rfl) (commute_ite (fun _ => rfl) (fun _ => rfl) fun _ => rfl) fun _ => rfl

theorem deliver_withLatch (k : Kind) : Function.Commute (deliver k) (withLatch p a b) := by
  intro s
  have hop : (withLatch p a b s).curOp = s.curOp := rfl
  simp only [deliver, hop]
  split_ifs with h
  · exact withLatch_of_request (requestOutcome_withOperands k) (curOp_of_untouched (requestOutcome_untouched k h)) h
  · exact recvReqResult_withLatch k s
  · rfl

theorem endAttempt_withLatch (k : Kind) : Function.Commute (endAttempt k) (withLatch p a b) :=
  fun s => deliver_withLatch k (raiseKind k s)

theorem testAvailable_withLatch : Function.Commute testAvailable (withLatch p a b) :=
  commute_ite (fun _ => rfl) (endAttempt_withLatch _) fun _ => rfl

theorem testDeadline_withLatch : Function.Commute testDeadline (withLatch p a b) :=
  commute_ite (fun _ => rfl) (fun s => endAttempt_withLatch .timeout (emit .timeoutEvt { s with cursor := 0 }))
    fun _ => rfl

theorem failTruncated_withLatch : Function.Commute failTruncated (withLatch p a b) := fun s =>
  endAttempt_withLatch .truncated (emitFail .truncated (s.cursor.setWidth 16) { s with cursor := 0 })

theorem storeBuf_withLatch (i : Nat) (x : Byte) :
    Function.Semiconj (storeBuf i x) (withLatch p a b) (mapNext (withLatch p a b)) :=
  semiconj_ite (fun _ => rfl) (fun _ => rfl) fun _ => rfl

theorem storeStart_withLatch (x : Byte) :
    Function.Semiconj (storeStart x) (withLatch p a b) (mapNext (withLatch p a b)) := by
  have hresync : Function.Commute (fun s => if s.cursor = 0 then s else emit (.resync s.cursor) s) (withLatch p a b) :=
    commute_ite (fun _ => rfl) (fun _ => rfl) fun _ => rfl
  exact semiconj_andThen ((storeBuf_withLatch 0 x).comp_left hresync.semiconj) fun _ => rfl

theorem storeData_withLatch (x : Byte) :
    Function.Semiconj (storeData x) (withLatch p a b) (mapNext (withLatch p a b)) := by
  refine semiconj_ite (fun _ => rfl) (semiconj_next fun s => ?_)
    (semiconj_andThen (fun s => storeBuf_withLatch s.cursor.toNat x s) fun _ => rfl)
  exact endAttempt_withLatch .overflow (emitFail .overflow 0 { s with cursor := 0 })

theorem storeUnit_withLatch (u : LineUnit) :
    Function.Semiconj (storeUnit u) (withLatch p a b) (mapNext (withLatch p a b)) :=
  semiconj_ite (fun _ => rfl) (storeStart_withLatch _) (storeData_withLatch _)

theorem readUnit_withLatch : Function.Semiconj readUnit (withLatch p a b) (mapNext (withLatch p a b)) := by
  intro s
  cases hq : s.rxq with
  | nil =>
    rw [readUnit_nil hq, readUnit_nil (s := withLatch p a b s) hq]
    rfl
  | cons u rest =>
    rw [readUnit_cons hq, readUnit_cons (s := withLatch p a b s) hq]
    exact storeUnit_withLatch u { s with rxq := rest }

theorem finishFrame_withLatch (q : Byte) (d : List Byte) (ck : Half) :
    Function.Semiconj (finishFrame q d ck) (withLatch p a b) (mapNext (withLatch p a b)) := by
  have hlatch : Function.Semiconj (latchFrame q d) (withLatch p a b) (mapNext (withLatch p a b)) :=
    semiconj_ite (fun _ => rfl) (fun _ => rfl) fun _ => rfl
  have hrx (e : DiagEvent) : Function.Commute (fun s => emit e { s with cursor := 0 }) (withLatch p a b) := fun _ => rfl
  refine semiconj_ite (fun _ => rfl)
    (semiconj_andThen (hlatch.comp_left (hrx _).semiconj) (semiconj_next (endAttempt_withLatch .ok)))
    (semiconj_next ?_)
  exact (endAttempt_withLatch _).comp_left (f' := fun s => emitFail _ _ (emit _ { s with cursor := 0 })) fun _ => rfl

theorem finishAttempt_withLatch : Function.Semiconj finishAttempt (withLatch p a b) (mapNext (withLatch p a b)) :=
  semiconj_ite (fun _ => rfl) (fun _ => rfl) <|
    semiconj_ite (fun _ => rfl) (semiconj_next failTruncated_withLatch) fun s =>
      finishFrame_withLatch (byteAt s .buf 0) (bytesAt s .buf 1 (s.cursor.toNat - 3))
        (be16Unpack (byteAt s .buf (s.cursor.toNat - 2)) (byteAt s .buf (s.cursor.toNat - 1))) s

/-! ### One action, and the run of an operation -/

theorem encodeTick_withLatch (r : EncRun) : Function.Commute (encodeTick r) (withLatch p a b) := by
  unfold encodeTick
  cases r.stage with
  | checksumLow =>
    have hsent : Function.Commute frameSent (withLatch p a b) := commute_ite (fun _ => rfl) (fun _ => rfl) fun _ => rfl
    exact fun s => hsent (emit (.frameTx r.port r.payload r.acc)
      (writeUnit (plainUnit (lowByte r.acc)) { s with enc := none }))
  | _ => exact fun _ => rfl

theorem act_withLatch : Function.Semiconj act (withLatch p a b) (mapNext (withLatch p a b)) := by
  intro s
  cases he : s.enc with
  | some r =>
    rw [act_sending he, act_sending (s := withLatch p a b s) he]
    exact semiconj_next (encodeTick_withLatch r) s
  | none =>
    have he' : (withLatch p a b s).enc = none := he
    cases hc : s.cp with
    | dOff =>
      rw [act_off he hc, act_off he' hc]
      exact semiconj_next betweenAttempts_withLatch s
    | dBegin =>
      have hbegin : Function.Commute (fun s => if s.s1Seen then recordStart s else testAvailable s)
          (withLatch p a b) := commute_ite (fun _ => rfl) (fun _ => rfl) testAvailable_withLatch
      rw [act_begin he hc, act_begin he' hc]
      exact semiconj_next hbegin s
    | dLoop =>
      rw [act_loop he hc, act_loop he' hc]
      exact semiconj_next testDeadline_withLatch s
    | dRead =>
      rw [act_read he hc, act_read he' hc]
      exact readUnit_withLatch s
    | dEof =>
      rw [act_eof he hc, act_eof he' hc]
      rfl
    | dFinish =>
      rw [act_finish he hc, act_finish he' hc]
      exact finishAttempt_withLatch s

theorem moved_withLatch : Function.Commute moved (withLatch p a b) := by
  intro s
  have hmove : nextMove (withLatch p a b s) = nextMove s := rfl
  simp only [moved, refusePresented, hmove]
  split <;> rfl

/-- The runs of two operations that differ in operands they do not read differ in these alone; a reset clears both. -/
theorem runSteps_withLatch (k : Nat) (s : State) :
    forgetOperands (runSteps k (withLatch p a b s)) = forgetOperands (runSteps k s) := by
  induction k generalizing s with
  | zero => rfl
  | succ k ih =>
    have hrest : atRest (withLatch p a b s) = atRest s := rfl
    cases hs : atRest s with
    | true =>
      rw [runSteps_of_rest hs, runSteps_of_rest (hrest.trans hs)]
      rfl
    | false =>
      rw [runSteps_succ hs, runSteps_succ (hrest.trans hs)]
      obtain ⟨hr, htick⟩ | ⟨hr, htick⟩ := tick_cases s
      · have htick' : tick (withLatch p a b s) = .next (resetBlock (environmentActs s)) := if_pos hr
        rw [htick, htick']
      · rw [tick_of_not_rst hr, tick_of_not_rst (s := withLatch p a b s) hr, moved_withLatch s, act_withLatch]
        cases act (moved s) with
        | next t => exact ih t
        | fault r => rfl
        | refused r => rfl

/-! ### Commands -/

/-- Two words of one `op`, both accepted, whose operations begin with the same operands but for those they do not read,
leave the same state but for the latch. -/
theorem perform_withLatch {op : Nibble} {p p' : Byte} {a a' b b' : Half} {first : State → State}
    (h : refuses s.cfg s.busy (commandWord op 0 p a b) = false)
    (h' : refuses s.cfg s.busy (commandWord op 0 p' a' b') = false)
    (hfirst : first (accept (commandWord op 0 p' a' b') s) =
      withLatch p' a' b' (first (accept (commandWord op 0 p a b) s))) :
    forgetOperands (perform (commandWord op 0 p a b) first s) =
      forgetOperands (perform (commandWord op 0 p' a' b') first s) := by
  rw [perform_accepted h, perform_accepted h', hfirst]
  exact (runSteps_withLatch _ _).symm

/-- The same of two words that are refused only while busy. -/
theorem perform_plain_withLatch {op : Nibble} {p p' : Byte} {a a' b b' : Half} {first : State → State}
    (hidle : s.busy = false) (hplain : isReservedOp op = false) (hsend : op ≠ opSend) (hload : op ≠ opLoadp)
    (hfirst : first (accept (commandWord op 0 p' a' b') s) =
      withLatch p' a' b' (first (accept (commandWord op 0 p a b) s))) :
    forgetOperands (perform (commandWord op 0 p a b) first s) =
      forgetOperands (perform (commandWord op 0 p' a' b') first s) :=
  perform_withLatch ((refuses_plain _ _ _ _ _ _ hplain hsend hload).trans hidle)
    ((refuses_plain _ _ _ _ _ _ hplain hsend hload).trans hidle) hfirst

/-- Two SEND words of one port and one length are refused alike, or send the same frame. -/
theorem execSend_forgetOperands {p : Byte} {a a' b b' : Half} (hlow : lowByte a = lowByte a') :
    forgetOperands (execSend p a b s) = forgetOperands (execSend p a' b' s) := by
  have hlen : lengthOperand a' = lengthOperand a := congrArg BitVec.toNat hlow.symm
  have hsame : refuses s.cfg s.busy (commandWord opSend 0 p a' b') =
      refuses s.cfg s.busy (commandWord opSend 0 p a b) := by
    rw [refuses_commandWord, refuses_commandWord, hlen]
    rfl
  unfold execSend
  cases h : refuses s.cfg s.busy (commandWord opSend 0 p a b) with
  | true =>
    rw [perform_refused h, perform_refused (hsame.trans h), refuse_commandWord, refuse_commandWord]
  | false => exact perform_withLatch h (hsame.trans h) (by simp only [accept_commandWord, hlen]; rfl)

end

/-- Settles O40: of two words that differ in unused fields only, the operations begin alike but for the latch. -/
theorem unusedFieldsAreIgnored : Obligations.UnusedFieldsAreIgnored := by
  intro p p' a a' b b' s hidle
  simp only [exec, execScan, execGetRevision, execRecvReq, execReceive, execSendRsp]
  refine ⟨?_, ?_, ?_, ?_, ?_, execSend_forgetOperands⟩
  all_goals
    refine perform_plain_withLatch hidle rfl (by decide) (by decide) ?_
    simp only [accept_commandWord]
    rfl

end Sys2Proof.Machine
end

section
/-! SUPPORT. The checksum as a sum, and what a sum does and does not see (spec 40_checksum.md R120 to R125). -/

namespace Sys2Proof.Machine

/-! ### The accumulator as a number -/

@[simp] theorem checksumAdd_toNat (acc : Half) (b : Byte) :
    (checksumAdd acc b).toNat = (acc.toNat + b.toNat) % 65536 := by
  rw [checksumAdd, BitVec.toNat_add, BitVec.toNat_setWidth_of_le (by decide)]

/-- The accumulation from any accumulator: the wraps on the way do not show in the result. -/
theorem foldl_checksumAdd_toNat (acc : Half) (d : List Byte) :
    (d.foldl checksumAdd acc).toNat = (acc.toNat + (d.map BitVec.toNat).sum) % 65536 := by
  induction d generalizing acc with
  | nil => exact (Nat.mod_eq_of_lt acc.isLt).symm
  | cons b d ih =>
    rw [List.foldl_cons, ih, checksumAdd_toNat, Nat.mod_add_mod, List.map_cons, List.sum_cons, Nat.add_assoc]

/-- Settles O8: the accumulation that begins with the port byte. -/
theorem checksumIsTheSum : Obligations.ChecksumIsTheSum := by
  intro p d
  rw [checksum, foldl_checksumAdd_toNat, BitVec.toNat_setWidth_of_le (by decide)]

theorem checksum_eq_iff {p q : Byte} {d e : List Byte} :
    checksum p d = checksum q e ↔
      p.toNat + (d.map BitVec.toNat).sum ≡ q.toNat + (e.map BitVec.toNat).sum [MOD 65536] := by
  rw [← BitVec.toNat_inj, checksumIsTheSum, checksumIsTheSum, Nat.ModEq]

/-! ### One byte changed -/

/-- Two bytes are too close to agree modulo 65536 without being equal. -/
theorem byte_eq_of_modEq {b c : Byte} (h : b.toNat ≡ c.toNat [MOD 65536]) : b = c :=
  BitVec.eq_of_toNat_eq (h.eq_of_lt_of_lt (by omega) (by omega))

theorem checksum_port_injective {p q : Byte} {d : List Byte} (h : checksum p d = checksum q d) : p = q :=
  byte_eq_of_modEq (Nat.ModEq.add_right_cancel' _ (checksum_eq_iff.mp h))

/-- A payload byte counts as the port byte does. -/
theorem checksum_byte_as_port (p b : Byte) (l r : List Byte) :
    checksum p (l ++ b :: r) = checksum b (l ++ p :: r) := by
  have hsum : p.toNat + ((l ++ b :: r).map BitVec.toNat).sum = b.toNat + ((l ++ p :: r).map BitVec.toNat).sum := by
    simp only [List.map_append, List.map_cons, List.sum_append, List.sum_cons]
    omega
  rw [checksum_eq_iff, hsum]

theorem checksum_byte_injective {p b c : Byte} {l r : List Byte}
    (h : checksum p (l ++ b :: r) = checksum p (l ++ c :: r)) : b = c := by
  rw [checksum_byte_as_port p b, checksum_byte_as_port p c] at h
  exact checksum_port_injective h

theorem xor_twoPow_ne {w k : Nat} (x : BitVec w) (hk : k < w) : x ^^^ BitVec.twoPow w k ≠ x := by
  intro h
  have hbit : (x ^^^ BitVec.twoPow w k).getLsbD k = !x.getLsbD k := by
    simp [hk]
  rw [h] at hbit
  exact (Bool.eq_not_self _).mp hbit

/-- Settles O9: the checksum is injective in each single byte, and a flip changes the byte or the checksum field. -/
theorem singleBitFlipIsDetected : Obligations.SingleBitFlipIsDetected := by
  rintro p d _ k hk rfl
  refine ⟨fun h => ?port, fun i hi h => ?payload, ?low, ?high⟩
  case port => exact xor_twoPow_ne p hk (checksum_port_injective h).symm
  case payload =>
    obtain ⟨l, b, r, rfl, -, hflip⟩ := List.exists_of_modify (fun b => b ^^^ BitVec.twoPow 8 k) hi
    rw [hflip] at h
    exact xor_twoPow_ne b hk (checksum_byte_injective h).symm
  case low => exact xor_twoPow_ne _ (by omega)
  case high => exact xor_twoPow_ne _ (by omega)

/-! ### Blind spots -/

theorem checksum_perm (p : Byte) {d e : List Byte} (h : d.Perm e) : checksum p d = checksum p e := by
  rw [checksum_eq_iff, (h.map BitVec.toNat).sum_eq]

/-- A zero byte in front changes nothing, and by the permutation it may stand anywhere. -/
theorem checksum_insert_zero (p : Byte) (d e : List Byte) : checksum p (d ++ 0#8 :: e) = checksum p (d ++ e) := by
  rw [checksum_perm p List.perm_middle, checksum_eq_iff, List.map_cons, List.sum_cons, BitVec.toNat_zero, Nat.zero_add]

/-- Settles O10: the sum does not depend on the order, nor on a summand 0. -/
theorem checksumBlindSpots : Obligations.ChecksumBlindSpots :=
  ⟨fun p _ _ => checksum_perm p, checksum_insert_zero⟩

end Sys2Proof.Machine
end

section
/-! SUPPORT. SEND (spec 43_portchannel.md R181): its frame on the line. -/

namespace Sys2Proof.Machine

open Sys2Proof.Safety

/-- Settles O22: an accepted SEND is a run of the encoder on the first bytes of TXP. -/
theorem sendWritesItsFrame : Obligations.SendWritesItsFrame := by
  intro p a b s hs hreset hlen
  have hbytes : bytesAt s .txp 0 (a.toNat % 256) = (List.range (a.toNat % 256)).map fun i => byteAt s .txp i := by
    simp [bytesAt]
  rw [← hbytes]
  have haccepted : refuses s.cfg s.busy (commandWord opSend 0 p a b) = false := by
    rw [refuses_commandWord, lengthOperand, lowByte_toNat]
    simp [hs.notBusy, hlen, isReservedOp, opSend, opLoadp]
  have hop : isRequestOp (cmdOp (commandWord opSend 0 p a b)) = false := by rw [cmdOp_commandWord]; rfl
  obtain ⟨e, hrun, hlog⟩ := perform_sends (p := p) (d := bytesAt s .txp 0 (a.toNat % 256))
    (first := fun s => startFrame s.opPort (bytesAt s .txp 0 (lengthOperand s.opA)) s) haccepted hop hreset
    (by rw [bytesAt_length]; omega) (by rw [accept_commandWord, lengthOperand, lowByte_toNat]; rfl)
  exact ⟨_, hrun, rfl, hlog, afterFrame_accept hs rfl⟩

end Sys2Proof.Machine
end

section
/-! SUPPORT. The loop of a decode attempt to which no unit arrives (spec 42_decode.md R143 to R152), whatever operation
runs it: it collects what the loop of R161 collects, unless the deadline passes. -/

namespace Sys2Proof.Machine

open Sys2Proof.Safety

/-! ### Runs in parts -/

/-- `k` steps take the block from `s` to `t`, in the middle of an operation. -/
def Reaches (k : Nat) (s t : State) : Prop := ∀ j, runSteps (k + j) s = runSteps j t

section
variable {j k : Nat} {s t u : State}

theorem Reaches.trans (hst : Reaches j s t) (htu : Reaches k t u) : Reaches (j + k) s u := fun i => by
  rw [Nat.add_assoc, hst, htu]

theorem runOperation_of_reaches (h : Reaches k s t) (hk : k ≤ stepBound s) (hrest : atRest t = true) :
    runOperation s = .next t :=
  runOperation_of_runSteps hk (h 0) hrest

end

/-! ### Time passes -/

/-- `s` when the environment has moved and only its clock has advanced. -/
def passed (s : State) : State :=
  { s with
    script := s.script.tail
    now := BitVec.ofNat 32 ((s.now.toNat + (nextMove s).ticks) % 2 ^ s.cfg.clockW) }

/-- The deadline of the attempt holds even when all the time that the script has left has passed (R145). -/
def Punctual (s : State) : Prop :=
  (elapsed s.cfg.clockW s.tStart s.now).toNat + scriptTicks s ≤ s.timeout.toNat

section
variable {s : State}

theorem nextMove_of_noArrivals (h : NoArrivals s) :
    (nextMove s).arrivals = [] ∧ (nextMove s).rst = false ∧ (nextMove s).present = none := by
  unfold nextMove
  split
  · exact ⟨rfl, rfl, rfl⟩
  · rename_i m rest hs
    exact h m (hs ▸ List.mem_cons_self)

theorem noArrivals_passed (h : NoArrivals s) : NoArrivals (passed s) := fun m hm => h m (List.mem_of_mem_tail hm)

/-- With nothing arriving, a step is the block's action when time has passed. -/
theorem tick_of_noArrivals (h : NoArrivals s) : tick s = act (passed s) := by
  obtain ⟨harrivals, hrst, hpresent⟩ := nextMove_of_noArrivals h
  rw [tick_of_not_rst hrst, moved_of_not_present hpresent, environmentActs, harrivals, List.append_nil]
  rfl

theorem scriptTicks_eq (s : State) : scriptTicks s = (nextMove s).ticks + scriptTicks (passed s) := by
  unfold scriptTicks nextMove passed
  cases s.script with
  | nil => rfl
  | cons m rest => rfl

theorem elapsed_toNat {w : Nat} (hw : w ≤ 32) (t0 t1 : Clock) :
    (elapsed w t0 t1).toNat = (2 ^ 32 - t0.toNat + t1.toNat) % 2 ^ w := by
  have hdvd : 2 ^ w ∣ 2 ^ 32 := Nat.pow_dvd_pow 2 hw
  have hlt := (Nat.mod_lt (t1 - t0).toNat (Nat.two_pow_pos w)).trans_le (Nat.le_of_dvd (by decide) hdvd)
  rw [elapsed, clockTrunc, BitVec.toNat_ofNat, Nat.mod_eq_of_lt hlt, BitVec.toNat_sub, Nat.mod_mod_of_dvd _ hdvd]

/-- The clock, though it wraps, measures no more than the time that has passed. -/
theorem elapsed_passed_le (hw : s.cfg.clockW ≤ 32) :
    (elapsed s.cfg.clockW s.tStart (passed s).now).toNat ≤
      (elapsed s.cfg.clockW s.tStart s.now).toNat + (nextMove s).ticks := by
  have hlt := (Nat.mod_lt (s.now.toNat + (nextMove s).ticks) (Nat.two_pow_pos s.cfg.clockW)).trans_le
    (Nat.pow_le_pow_right (by decide) hw)
  rw [elapsed_toNat hw, elapsed_toNat hw, passed, BitVec.toNat_ofNat, Nat.mod_eq_of_lt hlt, Nat.add_mod_mod,
    ← Nat.add_assoc, ← Nat.mod_add_mod]
  exact Nat.mod_le _ _

theorem punctual_passed (hw : s.cfg.clockW ≤ 32) (h : Punctual s) : Punctual (passed s) := by
  have helapsed := elapsed_passed_le hw
  rw [Punctual, scriptTicks_eq] at h
  have hleft : (elapsed s.cfg.clockW s.tStart (passed s).now).toNat + scriptTicks (passed s) ≤ s.timeout.toNat := by
    omega
  exact hleft

theorem not_punctual_of_deadlinePassed
    (h : deadlinePassed s.cfg s.tStart s.now s.timeout = true) : ¬ Punctual s := by
  have hlate : s.timeout.toNat < (elapsed s.cfg.clockW s.tStart s.now).toNat := by simpa [deadlinePassed] using h
  rw [Punctual]
  omega

end

/-! ### A step of an attempt -/

/-- The decode machine is running, and nothing arrives. -/
structure InAttempt (s : State) : Prop where
  busy : s.busy = true
  noFrame : s.enc = none
  running : s.cp ≠ .dOff
  params : s.cfg.Valid
  calm : NoArrivals s

/-- The state with every field blanked out that an attempt writes before it ends. -/
def attemptView (s : State) : State :=
  { s with
    buf := []
    cursor := 0
    cp := .dOff
    s1Seen := false
    tStart := 0
    rxq := []
    now := 0
    diagLog := []
    script := [] }

section
variable {s t : State}

theorem attemptView_passed (s : State) : attemptView (passed s) = attemptView s := rfl

theorem InAttempt.clockW_le (h : InAttempt s) : s.cfg.clockW ≤ 32 := by
  obtain ⟨-, -, -, -, -, hw, -⟩ := h.params
  exact hw

/-- An operation with an attempt in progress is not at rest. -/
theorem InAttempt.reaches (h : InAttempt s) (hact : act (passed s) = .next t) : Reaches 1 s t := fun j => by
  have hmoving : atRest s = false := by simp [atRest, waitsOnSilence, h.busy, h.running]
  rw [Nat.add_comm, runSteps_succ hmoving, tick_of_noArrivals h.calm, hact, andThen_next]

/-- S2, when S1 has found a unit waiting. -/
def begun (s : State) : State := recordStart (passed { passed s with s1Seen := true })

theorem testAvailable_waiting (h : s.rxq ≠ []) : testAvailable s = { s with s1Seen := true } :=
  if_neg (by simp [unitsAvailable, h])

theorem InAttempt.reaches_begun (h : InAttempt s) (hcp : s.cp = .dBegin) (hs1 : s.s1Seen = false)
    (hrxq : s.rxq ≠ []) : Reaches 2 s (begun s) := by
  have htest : act (passed s) = .next { passed s with s1Seen := true } := by
    rw [act_begin (s := passed s) h.noFrame hcp, if_neg (Bool.not_eq_true _ ▸ hs1),
      testAvailable_waiting (s := passed s) hrxq]
  have hseen : InAttempt { passed s with s1Seen := true } :=
    ⟨h.busy, h.noFrame, h.running, h.params, noArrivals_passed h.calm⟩
  exact (h.reaches htest).trans (hseen.reaches (act_begin (s := passed _) hseen.noFrame hcp))

theorem attemptView_begun (s : State) : attemptView (begun s) = attemptView s :=
  calc attemptView (begun s)
    _ = attemptView { passed s with s1Seen := true } := attemptView_passed { passed s with s1Seen := true }
    _ = attemptView s := attemptView_passed s

/-- The deadline counts from S2. -/
theorem punctual_begun (h : scriptTicks s ≤ s.timeout.toNat) : Punctual (begun s) := by
  have hzero : (elapsed s.cfg.clockW (begun s).now (begun s).now).toNat = 0 := by simp [elapsed, clockTrunc]
  have hfirst := scriptTicks_eq s
  have hsecond : scriptTicks (passed s) = _ + scriptTicks (begun s) := scriptTicks_eq { passed s with s1Seen := true }
  have hleft : 0 + scriptTicks (begun s) ≤ s.timeout.toNat := by omega
  rwa [← hzero] at hleft

/-- `s` when S3 has found the deadline not passed. -/
def inTime (s : State) : State := { passed s with cp := .dRead }

theorem inAttempt_inTime (h : InAttempt s) : InAttempt (inTime s) :=
  ⟨h.busy, h.noFrame, nofun, h.params, noArrivals_passed h.calm⟩

/-- `s` when S4 has then taken a unit, and `rest` is left. -/
def taken (rest : List LineUnit) (s : State) : State := { passed (inTime s) with rxq := rest }

theorem inAttempt_taken (h : InAttempt s) (rest : List LineUnit) : InAttempt (taken rest s) :=
  ⟨h.busy, h.noFrame, nofun, h.params, noArrivals_passed (inAttempt_inTime h).calm⟩

theorem attemptView_taken (rest : List LineUnit) (s : State) : attemptView (taken rest s) = attemptView s :=
  calc attemptView (taken rest s)
    _ = attemptView (inTime s) := attemptView_passed (inTime s)
    _ = attemptView s := attemptView_passed s

theorem testDeadline_late (h : deadlinePassed s.cfg s.tStart s.now s.timeout = true) :
    testDeadline s = endAttempt .timeout (emit .timeoutEvt { s with cursor := 0 }) :=
  if_pos h

theorem testDeadline_inTime (h : ¬ deadlinePassed s.cfg s.tStart s.now s.timeout = true) :
    testDeadline s = { s with cp := .dRead } :=
  if_neg h

/-- Steps 2a and 2b: only an attempt that is not punctual times out; any other stores the unit that waits. -/
theorem InAttempt.reaches_store (h : InAttempt s) (hcp : s.cp = .dLoop) {x : LineUnit} {rest : List LineUnit}
    (hrxq : s.rxq = x :: rest) :
    (¬ Punctual s ∧ Reaches 1 s (endAttempt .timeout (emit .timeoutEvt { passed s with cursor := 0 }))) ∨
      ∀ t, storeUnit x (taken rest s) = .next t → Reaches 2 s t := by
  have htest : act (passed s) = .next (testDeadline (passed s)) := act_loop (s := passed s) h.noFrame hcp
  by_cases hlate : deadlinePassed s.cfg s.tStart (passed s).now s.timeout = true
  · rw [testDeadline_late (s := passed s) hlate] at htest
    exact .inl ⟨fun hin => not_punctual_of_deadlinePassed (s := passed s) hlate (punctual_passed h.clockW_le hin),
      h.reaches htest⟩
  · rw [testDeadline_inTime (s := passed s) hlate] at htest
    have hact : act (passed (inTime s)) = storeUnit x (taken rest s) :=
      (act_read (s := passed (inTime s)) h.noFrame rfl).trans (readUnit_cons (s := passed (inTime s)) hrxq)
    exact .inr fun t hstore => (h.reaches htest).trans ((inAttempt_inTime h).reaches (hact.trans hstore))

/-! ### A unit stored -/

/-- `s` when `buf[i] <- b` has been done, `i + 1` bytes are collected, and the events `e` emitted. -/
def stored (e : List DiagEvent) (i : Nat) (b : Byte) (s : State) : State :=
  { s with
    buf := s.buf.write i b
    cursor := BitVec.ofNat 8 (i + 1)
    cp := .dEof
    diagLog := s.diagLog ++ e }

theorem inAttempt_stored (h : InAttempt s) (e : List DiagEvent) (i : Nat) (b : Byte) : InAttempt (stored e i b s) :=
  ⟨h.busy, h.noFrame, nofun, h.params, h.calm⟩

theorem attemptView_stored (e : List DiagEvent) (i : Nat) (b : Byte) (s : State) :
    attemptView (stored e i b s) = attemptView s := rfl

theorem collectedBytes_length (s : State) : (collectedBytes s).length = s.cursor.toNat := bytesAt_length ..

theorem collectedBytes_eq_nil_iff : collectedBytes s = [] ↔ s.cursor = 0 := by
  rw [← List.length_eq_zero_iff, collectedBytes_length, ← BitVec.toNat_inj]
  rfl

theorem byteAt_stored_other {i j : Nat} (e : List DiagEvent) (b : Byte) (h : j ≠ i) :
    byteAt (stored e i b s) .buf j = byteAt s .buf j :=
  byteAt_congr (Memory.read_write_other _ _ h) rfl

/-- The byte follows those before it. -/
theorem collectedBytes_stored (e : List DiagEvent) {i : Nat} (b : Byte) (hi : i < 255) :
    collectedBytes (stored e i b s) = bytesAt s .buf 0 i ++ [b] := by
  have hcursor : (stored e i b s).cursor.toNat = i + 1 := by
    rw [stored, BitVec.toNat_ofNat, Nat.mod_eq_of_lt (by omega)]
  have hlast : byteAt (stored e i b s) .buf i = b := byteAt_of_read (Memory.read_write_same _ _ _)
  have hothers : ∀ j ∈ List.range i, byteAt (stored e i b s) .buf j = byteAt s .buf j := fun j hj =>
    byteAt_stored_other e b (List.mem_range.mp hj).ne
  simp only [collectedBytes, bytesAt, hcursor, Nat.zero_add, List.range_succ, List.map_append, List.map_cons,
    List.map_nil, hlast, List.map_congr_left hothers]

/-- The RESYNC event of a START that discards `got` (R149). -/
def resyncOf (got : List Byte) : List DiagEvent := if got = [] then [] else [.resync (BitVec.ofNat 8 got.length)]

theorem storeUnit_marked {x : LineUnit} (hx : isMarked x = true) (hroom : 0 < s.cfg.bufCap) :
    storeUnit x s = .next (stored (resyncOf (collectedBytes s)) 0 (stripUnit x) s) := by
  obtain ⟨t, hstart⟩ := storeStart_next (stripUnit x) hroom
  rw [storeUnit, if_pos hx, hstart]
  obtain ⟨-, rfl⟩ := storeStart_eq_next hstart
  simp only [resyncOf, collectedBytes_eq_nil_iff, collectedBytes_length]
  split <;> simp [stored, emit]

theorem storeUnit_plain {x : LineUnit} (hx : isMarked x = false) (hroom : s.cursor.toNat < s.cfg.bufCap) :
    storeUnit x s = .next (stored [] s.cursor.toNat (stripUnit x) s) := by
  obtain ⟨t, hdata⟩ := storeData_next (stripUnit x) hroom.le
  rw [storeUnit, if_neg (Bool.not_eq_true _ ▸ hx), hdata]
  obtain ⟨hfull, -⟩ | ⟨-, rfl⟩ := storeData_eq_next hdata
  · exact absurd hfull hroom.ne
  · simp [stored, BitVec.ofNat_add]

theorem storeUnit_full {x : LineUnit} (hx : isMarked x = false) (hfull : s.cursor.toNat = s.cfg.bufCap) :
    storeUnit x s = .next (endAttempt .overflow (emitFail .overflow 0 { s with cursor := 0 })) := by
  rw [storeUnit, if_neg (Bool.not_eq_true _ ▸ hx), storeData, if_pos (by simp [bufferFull, hfull])]

/-- `s` when the gap test of R152 has been made. -/
def gapTested (s : State) : State := testGap (passed s)

theorem InAttempt.reaches_gapTested (h : InAttempt s) (hcp : s.cp = .dEof) : Reaches 1 s (gapTested s) :=
  h.reaches (act_eof (s := passed s) h.noFrame hcp)

theorem inAttempt_gapTested (h : InAttempt s) : InAttempt (gapTested s) :=
  ⟨h.busy, h.noFrame, by simp only [gapTested, testGap_cp]; split <;> simp, h.params,
    noArrivals_passed h.calm⟩

theorem frameComplete_iff (s : State) :
    frameComplete s = true ↔ s.cfg.maxLen ≤ (collectedBytes s).length ∨ s.rxq = [] := by
  simp [frameComplete, unitsAvailable, collectedBytes_length, or_comm]

theorem gapTested_cp (s : State) :
    (gapTested s).cp = if s.cfg.maxLen ≤ (collectedBytes s).length ∨ s.rxq = [] then .dFinish else .dLoop := by
  simp only [gapTested, testGap_cp, frameComplete_iff]
  rfl

theorem collectedBytes_gapTested (s : State) : collectedBytes (gapTested s) = collectedBytes s := rfl

theorem byteAt_gapTested (sp : Space) (i : Nat) : byteAt (gapTested s) sp i = byteAt s sp i := by
  cases sp <;> rfl

end

/-! ### The loop of R161 -/

/-- What the loop collects when it has stored a byte and comes to the test of R152. -/
def afterGap (c : Params) (got : List Byte) (q : List LineUnit) : Collected :=
  if c.maxLen ≤ got.length then { bytes := some got, rest := q, events := [] } else collect c got q

section
variable {c : Params} {got : List Byte} {x : LineUnit} {q : List LineUnit}

theorem afterGap_of_complete (h : c.maxLen ≤ got.length ∨ q = []) :
    afterGap c got q = { bytes := some got, rest := q, events := [] } := by
  unfold afterGap
  split
  · rfl
  · rename_i hshort
    rw [h.resolve_left hshort]
    rfl

theorem collect_marked (hx : isMarked x = true) :
    collect c got (x :: q) = { afterGap c [stripUnit x] q with
      events := resyncOf got ++ (afterGap c [stripUnit x] q).events } := by
  have hshort : ¬ c.maxLen ≤ [stripUnit x].length := by simp [Params.maxLen]
  rw [collect, if_pos hx, afterGap, if_neg hshort, resyncOf]

theorem collect_plain (hx : isMarked x = false) (hroom : got.length ≠ c.bufCap) :
    collect c got (x :: q) = afterGap c (got ++ [stripUnit x]) q := by
  rw [collect, if_neg (Bool.not_eq_true _ ▸ hx), if_neg hroom, afterGap, List.length_append, List.length_singleton]

theorem collect_full (hx : isMarked x = false) (hfull : got.length = c.bufCap) :
    collect c got (x :: q) = { bytes := none, rest := q, events := [] } := by
  rw [collect, if_neg (Bool.not_eq_true _ ▸ hx), if_pos hfull]

end

/-! ### The loop of an attempt -/

/-- How the loop that began in `s` and collects `r` ends after `k` steps, `u` the state of the attempt then: the
deadline has passed, or a full buffer has met another byte, or the bytes wait to be split. -/
inductive LoopEnds (r : Collected) (k : Nat) (s u : State) : Prop
  | timeout (late : ¬ Punctual s)
      (reaches : Reaches k s (endAttempt .timeout (emit .timeoutEvt { u with cursor := 0 })))
  | overflow (bytes : r.bytes = none) (rest : u.rxq = r.rest) (events : u.diagLog = s.diagLog ++ r.events)
      (reaches : Reaches k s (endAttempt .overflow (emitFail .overflow 0 { u with cursor := 0 })))
  | collected (bytes : r.bytes = some (collectedBytes u)) (rest : u.rxq = r.rest)
      (events : u.diagLog = s.diagLog ++ r.events) (reaches : Reaches k s u) (running : InAttempt u)
      (finish : u.cp = .dFinish)

/-- From step 2a in `s` the loop collects `r` in three steps a unit at most, of `m` units, and writes no byte of BUF
from index `n` on. -/
def LoopRuns (r : Collected) (m n : Nat) (s : State) : Prop :=
  ∃ k u, k ≤ 3 * m ∧ attemptView u = attemptView s ∧ (∀ i, n ≤ i → byteAt u .buf i = byteAt s .buf i) ∧
    LoopEnds r k s u

/-- The attempt is at step 2a with `got` collected and `q` waiting. -/
structure Collecting (got : List Byte) (q : List LineUnit) (s : State) : Prop extends InAttempt s where
  loop : s.cp = .dLoop
  bytes : collectedBytes s = got
  waiting : s.rxq = q
  room : got.length ≤ s.cfg.bufCap

/-- The attempt that was at step 2a in `s` has stored a unit: `got` is collected, `q` left, `e` emitted. -/
structure Stored (got : List Byte) (q : List LineUnit) (e : List DiagEvent) (s t : State) : Prop
    extends InAttempt t where
  gap : t.cp = .dEof
  reaches : Reaches 2 s t
  punctual : Punctual s → Punctual t
  view : attemptView t = attemptView s
  beyond : ∀ i, got.length ≤ i → byteAt t .buf i = byteAt s .buf i
  bytes : collectedBytes t = got
  waiting : t.rxq = q
  events : t.diagLog = s.diagLog ++ e

section
variable {got : List Byte} {x : LineUnit} {q : List LineUnit} {e : List DiagEvent} {s t : State}

theorem LoopRuns.mono {r : Collected} {m n n' : Nat} (h : LoopRuns r m n s) (hn : n ≤ n') : LoopRuns r m n' s := by
  obtain ⟨k, u, hk, hu, hbeyond, hends⟩ := h
  exact ⟨k, u, hk, hu, fun i hi => hbeyond i (hn.trans hi), hends⟩

theorem LoopEnds.after {r : Collected} {j k : Nat} {u : State} (h : LoopEnds r k t u)
    (hst : Reaches j s t) (hpunctual : Punctual s → Punctual t) (hlog : t.diagLog = s.diagLog ++ e) :
    LoopEnds { r with events := e ++ r.events } (j + k) s u := by
  have hevents (hu : u.diagLog = t.diagLog ++ r.events) : u.diagLog = s.diagLog ++ (e ++ r.events) := by
    rw [hu, hlog, List.append_assoc]
  cases h with
  | timeout late reaches => exact .timeout (late ∘ hpunctual) (hst.trans reaches)
  | overflow bytes rest events reaches => exact .overflow bytes rest (hevents events) (hst.trans reaches)
  | collected bytes rest events reaches running finish =>
    exact .collected bytes rest (hevents events) (hst.trans reaches) running finish

/-- Step 2f: with a unit stored, the bytes are handed over or the loop goes on. -/
theorem Stored.loopRuns (h : Stored got q e s t) (hroom : got.length ≤ s.cfg.bufCap)
    (ih : ∀ u, Collecting got q u → q ≠ [] →
      LoopRuns (collect u.cfg got q) q.length (got.length + q.length) u) :
    LoopRuns { afterGap s.cfg got q with events := e ++ (afterGap s.cfg got q).events } (q.length + 1)
      (got.length + q.length) s := by
  have hcfg : t.cfg = s.cfg := (congrArg State.cfg h.view :)
  have hreaches : Reaches 3 s (gapTested t) := h.reaches.trans (h.reaches_gapTested h.gap)
  have hpunctual (hin : Punctual s) : Punctual (gapTested t) := punctual_passed h.clockW_le (h.punctual hin)
  have hlog : (gapTested t).diagLog = s.diagLog ++ e := h.events
  have hview : attemptView (gapTested t) = attemptView s := h.view
  have hbytes : collectedBytes (gapTested t) = got := h.bytes
  have hcp := gapTested_cp t
  rw [h.bytes, h.waiting, hcfg] at hcp
  by_cases hdone : s.cfg.maxLen ≤ got.length ∨ q = []
  · rw [if_pos hdone] at hcp
    rw [afterGap_of_complete hdone]
    refine ⟨3, gapTested t, by omega, hview, fun i hi => ?_, ?_⟩
    · exact (byteAt_gapTested ..).trans (h.beyond i (by omega))
    · exact .collected (congrArg some hbytes.symm) h.waiting (by simpa using hlog) hreaches
        (inAttempt_gapTested h.toInAttempt) hcp
  · rw [if_neg hdone] at hcp
    obtain ⟨hshort, hmore⟩ := not_or.mp hdone
    obtain ⟨k, u, hk, hu, hbeyond, hends⟩ :=
      ih (gapTested t) ⟨inAttempt_gapTested h.toInAttempt, hcp, hbytes, h.waiting, hcfg.symm ▸ hroom⟩ hmore
    rw [afterGap, if_neg hshort]
    refine ⟨3 + k, u, by omega, hu.trans hview, fun i hi => ?_, hcfg ▸ hends.after hreaches hpunctual hlog⟩
    rw [hbeyond i hi, byteAt_gapTested, h.beyond i (by omega)]

theorem InAttempt.collecting_begun (h : InAttempt s) (hempty : s.cursor = 0) (hrxq : s.rxq = q) :
    Collecting [] q (begun s) where
  toInAttempt := ⟨h.busy, h.noFrame, nofun, h.params, noArrivals_passed (noArrivals_passed h.calm)⟩
  loop := rfl
  bytes := collectedBytes_eq_nil_iff.mpr hempty
  waiting := hrxq
  room := Nat.zero_le _

/-- A byte stored at `i` of BUF leaves those collected before it. -/
theorem Collecting.stored {i : Nat} {b : Byte} (h : Collecting got (x :: q) s) (hroom : i < s.cfg.bufCap)
    (hreaches : Reaches 2 s (stored e i b (taken q s))) :
    Stored (bytesAt s .buf 0 i ++ [b]) q e s (stored e i b (taken q s)) where
  toInAttempt := inAttempt_stored (inAttempt_taken h.toInAttempt q) e i b
  gap := rfl
  reaches := hreaches
  punctual := fun hin => punctual_passed h.clockW_le (punctual_passed h.clockW_le hin)
  view := (attemptView_stored ..).trans (attemptView_taken ..)
  beyond := fun j hj => byteAt_stored_other (s := taken q s) e b (by
    rw [List.length_append, bytesAt_length, List.length_singleton] at hj
    omega)
  bytes := by
    obtain ⟨-, -, -, hcap, -⟩ := h.params
    exact collectedBytes_stored (s := taken q s) e b (hroom.trans_le hcap)
  waiting := rfl
  events := rfl

/-- From step 2a on, the loop of the attempt collects what the loop of R161 collects. -/
theorem Collecting.loopRuns (h : Collecting got q s) (hmore : q ≠ []) :
    LoopRuns (collect s.cfg got q) q.length (got.length + q.length) s := by
  induction q generalizing got s with
  | nil => exact absurd rfl hmore
  | cons x q ih =>
    obtain ⟨-, -, hcap, -⟩ := h.params
    have hcursor : s.cursor.toNat = got.length := by rw [← h.bytes, collectedBytes_length]
    obtain ⟨hlate, hreaches⟩ | hstore := h.reaches_store h.loop h.waiting
    · exact ⟨1, passed s, by rw [List.length_cons]; omega, rfl, fun _ _ => rfl, .timeout hlate hreaches⟩
    cases hx : isMarked x with
    | true =>
      have hroom : 0 < s.cfg.bufCap := by omega
      have hstored : Stored [stripUnit x] q _ s _ := h.stored hroom (hstore _ (storeUnit_marked hx hroom))
      rw [show collectedBytes (taken q s) = got from h.bytes] at hstored
      rw [collect_marked hx]
      exact (hstored.loopRuns hroom fun _ => ih).mono
        (by simp only [List.length_cons, List.length_nil]; omega)
    | false =>
      by_cases hfull : got.length = s.cfg.bufCap
      · rw [collect_full hx hfull]
        exact ⟨2, taken q s, by rw [List.length_cons]; omega, attemptView_taken q s, fun _ _ => rfl,
          .overflow rfl rfl (List.append_nil _).symm (hstore _ (storeUnit_full hx (hcursor.trans hfull)))⟩
      · have hroom : got.length < s.cfg.bufCap := h.room.lt_of_ne hfull
        have hcursorRoom := hcursor.trans_lt hroom
        have hstored := h.stored hcursorRoom (hstore _ (storeUnit_plain hx hcursorRoom))
        rw [show bytesAt s .buf 0 s.cursor.toNat = got from h.bytes] at hstored
        rw [collect_plain hx hfull]
        exact (hstored.loopRuns (by simpa using hroom) fun _ => ih).mono
          (by simp only [List.length_append, List.length_cons, List.length_nil]; omega)

end

end Sys2Proof.Machine
end

section
/-! SUPPORT. The round trip (spec 41_encode.md R136): the loop of R161 collects a frame whole, so an attempt that finds
one receives what was sent. -/

namespace Sys2Proof.Machine

open Sys2Proof.Safety

/-! ### The bytes of a frame -/

theorem collect_map_plainUnit {c : Params} {got bytes : List Byte} (hlen : got.length + bytes.length ≤ c.maxLen)
    (hcap : got.length + bytes.length ≤ c.bufCap) :
    collect c got (bytes.map plainUnit) = { bytes := some (got ++ bytes), rest := [], events := [] } := by
  induction bytes generalizing got with
  | nil => rw [List.append_nil]; rfl
  | cons b bytes ih =>
    rw [List.length_cons] at hlen hcap
    rw [List.map_cons, collect_plain (isMarked_plainUnit b) (by omega), stripUnit_plainUnit]
    by_cases hlast : bytes = []
    · rw [afterGap_of_complete (.inr (by rw [hlast]; rfl)), hlast]
      rfl
    · have hmore := List.length_pos_of_ne_nil hlast
      have hgot : (got ++ [b]).length = got.length + 1 := List.length_append
      rw [afterGap, if_neg (by omega), ih (by omega) (by omega), List.append_assoc]
      rfl

/-- The bytes of a frame, in the order of the line. -/
theorem encodeFrame_eq (p : Byte) (d : List Byte) :
    encodeFrame p d = markUnit p :: (d ++ be16Pack (checksum p d)).map plainUnit := by
  simp [encodeFrame, frameUnits, be16Pack]

/-- The loop of R161 collects a frame whole. -/
theorem collect_encodeFrame {c : Params} {p : Byte} {d : List Byte} (hlen : d.length ≤ c.maxPayload)
    (hcap : c.maxLen ≤ c.bufCap) :
    collect c [] (encodeFrame p d) =
      { bytes := some (p :: (d ++ be16Pack (checksum p d))), rest := [], events := [] } := by
  have hfits : [p].length + (d ++ be16Pack (checksum p d)).length ≤ c.maxLen := by
    simp only [be16Pack, Params.maxLen, List.length_append, List.length_cons, List.length_nil]
    omega
  have hshort : ¬ c.maxLen ≤ [p].length := by simp [Params.maxLen]
  rw [encodeFrame_eq, collect_marked (isMarked_markUnit p), stripUnit_markUnit, afterGap, if_neg hshort,
    collect_map_plainUnit hfits (hfits.trans hcap)]
  rfl

/-- Steps 3 and 4 with the bytes of a frame collected (R155). -/
theorem finishAttempt_frame {s : State} {p : Byte} {d : List Byte} {ck : Half}
    (hbytes : collectedBytes s = p :: (d ++ be16Pack ck)) (hcap : d.length + 3 ≤ s.cfg.bufCap) :
    finishAttempt s = finishFrame p d ck s := by
  have hcursor : s.cursor.toNat = d.length + 3 := by rw [← collectedBytes_length, hbytes]; simp [be16Pack]
  have hlong : tooShort s = false := by simp [tooShort, hcursor]
  obtain ⟨i, hdecode, hexec⟩ := decodeBytes_collectedBytes hlong
  rw [hbytes, decodeBytes_frame] at hdecode
  cases hdecode
  rw [finishAttempt, if_neg (by simpa [spaceSize, hcursor] using hcap), hlong, ← exec_frameInstr, hexec]
  rfl

/-! ### The attempt -/

/-- A frame that is collected whole is latched and handed to the operation (R155 to R158). -/
theorem InAttempt.reaches_verified {s : State} {p : Byte} {d : List Byte} (h : InAttempt s) (hcp : s.cp = .dFinish)
    (hbytes : collectedBytes s = p :: (d ++ be16Pack (checksum p d))) (hlen : d.length ≤ s.cfg.maxPayload)
    (hcap : s.cfg.maxLen ≤ s.cfg.bufCap) : Reaches 1 s (deliver .ok (verified p d (passed s))) := by
  refine h.reaches ((act_finish (s := passed s) h.noFrame hcp).trans ?_)
  rw [finishAttempt_frame (s := passed s) hbytes ((Nat.add_le_add_right hlen 3).trans hcap),
    finishFrame_verified (s := passed s) hlen]

/-- An attempt that finds a frame that fits, whatever operation runs it, latches the frame and hands it over, all its
units read, unless the clock advances by more than `TIMEOUT` (R136, R145). -/
theorem InAttempt.receives_frame {s : State} {p : Byte} {d : List Byte} (h : InAttempt s) (hcp : s.cp = .dBegin)
    (hs1 : s.s1Seen = false) (hempty : s.cursor = 0) (hrxq : s.rxq = encodeFrame p d)
    (hlen : d.length ≤ s.cfg.maxPayload) (hcap : s.cfg.maxLen ≤ s.cfg.bufCap) :
    ∃ k u, k ≤ 3 * (d.length + 3) + 3 ∧ attemptView u = attemptView s ∧
      (∀ i, d.length + 3 ≤ i → byteAt u .buf i = byteAt s .buf i) ∧
      ((s.timeout.toNat < scriptTicks s ∧
          Reaches k s (endAttempt .timeout (emit .timeoutEvt { u with cursor := 0 }))) ∨
        (u.rxq = [] ∧ u.diagLog = s.diagLog ∧ Reaches k s (deliver .ok (verified p d u)))) := by
  have hmore : s.rxq ≠ [] := by rw [hrxq, encodeFrame_eq]; simp
  have hbegun := h.reaches_begun hcp hs1 hmore
  obtain ⟨k, u, hk, hview, hbeyond, hends⟩ := (h.collecting_begun hempty hrxq).loopRuns (hrxq ▸ hmore)
  rw [attemptView_begun] at hview
  have hcfg : u.cfg = s.cfg := (congrArg State.cfg hview :)
  rw [show (begun s).cfg = s.cfg from rfl, collect_encodeFrame hlen hcap] at hends
  rw [encodeFrame_length] at hk
  simp only [List.length_nil, Nat.zero_add, encodeFrame_length] at hbeyond
  cases hends with
  | timeout late reaches =>
    exact ⟨2 + k, u, by omega, hview, hbeyond,
      .inl ⟨Nat.lt_of_not_le fun hin => late (punctual_begun hin), hbegun.trans reaches⟩⟩
  | overflow bytes rest events reaches => cases bytes
  | collected bytes rest events reaches running finish =>
    have hverified := running.reaches_verified finish (Option.some_inj.mp bytes).symm (hcfg ▸ hlen) (hcfg ▸ hcap)
    exact ⟨2 + k + 1, passed u, by omega, hview, hbeyond,
      .inr ⟨rest, events.trans (List.append_nil _), (hbegun.trans reaches).trans hverified⟩⟩

theorem endAttempt_receive (k : Kind) {s : State} (h : s.curOp = opReceive) :
    endAttempt k s = endOp (raiseKind k s) :=
  deliver_receive k h

/-- Settles O26: the loop collects what that of R161 collects, and that is the frame. -/
theorem sentFrameIsReceived : Obligations.SentFrameIsReceived := by
  intro q d p a b s hparams hcap hlen hs hcalm hrxq
  have haccepted : refuses s.cfg s.busy (commandWord opReceive 0 p a b) = false :=
    (refuses_plain _ _ _ _ _ _ rfl (by decide) (by decide)).trans hs.notBusy
  have hattempt : InAttempt (startAttempt (accept (commandWord opReceive 0 p a b) s)) :=
    ⟨rfl, hs.noFrame, by simp, hparams, hcalm⟩
  obtain ⟨k, u, hk, hview, -, hends⟩ := hattempt.receives_frame rfl rfl rfl hrxq hlen hcap
  have hop : u.curOp = opReceive := (congrArg State.curOp hview :).trans (cmdOp_commandWord ..)
  have hbound : k ≤ stepBound (startAttempt (accept (commandWord opReceive 0 p a b) s)) := by
    have hunits : s.rxq.length = d.length + 3 := hrxq ▸ encodeFrame_length q d
    simp only [stepBound, unitsToCome, startAttempt_rxq, accept_rxq]
    omega
  rw [exec, execReceive, perform_accepted haccepted]
  obtain ⟨hlate, hreaches⟩ | ⟨hread, -, hreaches⟩ := hends
  · rw [endAttempt_receive .timeout (s := emit .timeoutEvt { u with cursor := 0 }) hop] at hreaches
    exact ⟨_, runOperation_of_reaches hreaches hbound (atRest_endOp _), fun hin => absurd rfl hin,
      fun hin => absurd hin hlate.not_ge⟩
  · rw [deliver_receive .ok (s := verified q d u) hop] at hreaches
    have hrxLen : (BitVec.ofNat 8 d.length).toNat = d.length := by
      obtain ⟨-, hmax, -⟩ := hparams
      rw [BitVec.toNat_ofNat, Nat.mod_eq_of_lt (by omega)]
    exact ⟨_, runOperation_of_reaches hreaches hbound (atRest_endOp _),
      fun _ => ⟨rfl, rfl, hrxLen, fun i hi => byteAt_verified_payload q d u hi, hread⟩, fun _ => nofun⟩

end Sys2Proof.Machine
end

section
/-! SUPPORT. The rows of the decode machine's transition table (spec 42_decode.md R143 to R160): what each action does
with the whole state, S4 and D_FINISH as the execution of the unit taken and of the frame collected. -/

namespace Sys2Proof.Machine

open Sys2Proof.Safety

section
variable {s : State}

/-! ### Storing a unit -/

theorem storeStart_first (b : Byte) (hroom : 0 < s.cfg.bufCap) (hempty : s.cursor = 0) :
    storeStart b s = .next { s with buf := s.buf.write 0 b, cursor := 1, cp := .dEof } := by
  obtain ⟨t, hstart⟩ := storeStart_next b hroom
  obtain ⟨-, rfl⟩ := storeStart_eq_next hstart
  rw [hstart, if_pos hempty]

/-- A START in mid-frame discards what was collected (R149). -/
theorem storeStart_resync (b : Byte) (hroom : 0 < s.cfg.bufCap) (hsome : s.cursor ≠ 0) :
    storeStart b s = .next { s with
      diagLog := s.diagLog ++ [.resync s.cursor], buf := s.buf.write 0 b, cursor := 1, cp := .dEof } := by
  obtain ⟨t, hstart⟩ := storeStart_next b hroom
  obtain ⟨-, rfl⟩ := storeStart_eq_next hstart
  rw [hstart, if_neg hsome]
  rfl

/-- Settles O12. -/
theorem startUnitBecomesByteZero : Obligations.StartUnitBecomesByteZero :=
  fun b _ hroom => ⟨storeStart_first b hroom, storeStart_resync b hroom⟩

theorem storeData_append (b : Byte) (hroom : s.cursor.toNat < s.cfg.bufCap) :
    storeData b s = .next { s with
      buf := s.buf.write s.cursor.toNat b, cursor := BitVec.ofNat 8 (s.cursor.toNat + 1), cp := .dEof } := by
  have hnext : BitVec.ofNat 8 (s.cursor.toNat + 1) = s.cursor + 1 := by simp [BitVec.ofNat_add]
  obtain ⟨t, hdata⟩ := storeData_next b hroom.le
  obtain ⟨hfull, -⟩ | ⟨-, rfl⟩ := storeData_eq_next hdata
  · exact absurd hfull hroom.ne
  · rw [hdata, hnext]

/-- `s` when a full buffer has met another byte (R150). -/
def overflowed (s : State) : State :=
  { s with cursor := 0, diagLog := s.diagLog ++ [.fail .overflow 0], rxKind := .overflow, cp := .dOff }

theorem storeData_full (b : Byte) (hfull : s.cursor.toNat = s.cfg.bufCap) :
    storeData b s = .next (deliver .overflow (overflowed s)) :=
  if_pos (by simp [bufferFull, hfull])

/-- A QUERY that fails leaves the sentinel (R200). -/
theorem deliver_overflow_query (h : s.curOp = opQuery) :
    deliver .overflow s = { s with ctl := .idle, qValue := 0xFFFF, busy := false } := by
  have hop : ({ s with ctl := .idle } : State).curOp = opQuery := h
  rw [deliver_request _ (h ▸ rfl), requestOutcome, concludeRequest_eq, commandResult, if_pos hop]
  rfl

/-- Settles O13. -/
theorem dataUnitIsAppendedOrOverflows : Obligations.DataUnitIsAppendedOrOverflows := by
  intro b s _
  refine ⟨storeData_append b, storeData_full b, fun hfull hop => ?_, fun hfull hop => ?_, fun hfull hop => ?_⟩
  all_goals refine (storeData_full b hfull).trans (congrArg _ ?_)
  · exact deliver_receive .overflow (s := overflowed s) hop
  · exact deliver_recvReq .overflow (s := overflowed s) hop
  · exact deliver_overflow_query (s := overflowed s) hop

/-! ### The completion check -/

/-- `s` when fewer than 3 bytes were collected (R153). -/
def truncated (s : State) : State :=
  { s with
    cursor := 0, diagLog := s.diagLog ++ [.fail .truncated (BitVec.ofNat 16 s.cursor.toNat)]
    rxKind := .truncated, cp := .dOff }

theorem finishAttempt_short (hroom : s.cursor.toNat ≤ s.cfg.bufCap) (hshort : s.cursor.toNat < 3) :
    finishAttempt s = .next (deliver .truncated (truncated s)) := by
  rw [finishAttempt, if_neg (by simpa [spaceSize] using hroom), if_pos (by simpa [tooShort] using hshort), truncated,
    BitVec.ofNat_toNat]
  rfl

/-- Bytes that decode to a frame are split and finished as that frame (R155). -/
theorem finishAttempt_of_decodeBytes {i : Instr} (hroom : s.cursor.toNat ≤ s.cfg.bufCap)
    (hdecode : decodeBytes (collectedBytes s) = .ok i) : finishAttempt s = exec i s := by
  have hlong : tooShort s = false := by
    by_contra hshort
    have hlen : (collectedBytes s).length < 3 := by simpa [tooShort, collectedBytes_length] using hshort
    rw [decodeBytes_of_length_lt hlen] at hdecode
    cases hdecode
  obtain ⟨j, hj, hexec⟩ := decodeBytes_collectedBytes hlong
  cases hdecode.symm.trans hj
  rw [finishAttempt, if_neg (by simpa [spaceSize] using hroom), hlong, hexec]
  rfl

theorem act_of_decodeBytes {i : Instr} (henc : s.enc = none) (hcp : s.cp = .dFinish)
    (hroom : s.cursor.toNat ≤ s.cfg.bufCap) (hdecode : decodeBytes (collectedBytes s) = .ok i) : act s = exec i s :=
  (act_finish henc hcp).trans (finishAttempt_of_decodeBytes hroom hdecode)

/-- Settles O45: the environment's move leaves the collected bytes as they are. -/
theorem stepRunsTheCollectedFrame : Obligations.StepRunsTheCollectedFrame := by
  intro s i hbusy henc hcp hroom hrst hnone hdecode
  rw [step_of_busy hbusy, tick_of_not_rst hrst, moved_of_not_present hnone]
  exact act_of_decodeBytes (s := environmentActs s) henc hcp hroom hdecode

/-! ### The table -/

theorem testAvailable_silent (hempty : s.cursor = 0) (hrxq : s.rxq = []) :
    testAvailable s = endAttempt .noData s :=
  if_pos (by simp [unitsAvailable, hempty, hrxq])

theorem act_begin_s1 (henc : s.enc = none) (hcp : s.cp = .dBegin) (hs1 : s.s1Seen = false) :
    act s = .next (testAvailable s) := by
  rw [act_begin henc hcp, hs1]
  rfl

theorem act_begin_s2 (henc : s.enc = none) (hcp : s.cp = .dBegin) (hs1 : s.s1Seen = true) :
    act s = .next (recordStart s) := by
  rw [act_begin henc hcp, hs1]
  rfl

theorem deadlinePassed_iff {c : Params} {t0 now timeout : Clock} :
    deadlinePassed c t0 now timeout = true ↔ timeout.toNat < (elapsed c.clockW t0 now).toNat := by
  simp [deadlinePassed]

theorem testGap_complete (h : s.rxq = [] ∨ s.cfg.maxLen ≤ s.cursor.toNat) :
    testGap s = { s with cp := .dFinish } := by
  rw [testGap, if_pos (by simpa [frameComplete, unitsAvailable] using h)]

theorem testGap_more (hrxq : s.rxq ≠ []) (hshort : s.cursor.toNat < s.cfg.maxLen) :
    testGap s = { s with cp := .dLoop } := by
  rw [testGap, if_neg (by simpa [frameComplete, unitsAvailable] using ⟨hrxq, hshort⟩)]

/-- Settles O47, a row of R160 at a time: S1, S2, S3, S4, S5, the completion check. -/
theorem decodeTransitions : Obligations.DecodeTransitions := by
  intro s henc
  refine ⟨fun hcp hs1 hempty hrxq => ?noData, fun hcp hs1 hrxq => ?available, fun hcp hs1 => ?begun,
    fun hcp hlate => ?late, fun hcp hin => ?inTime, fun hcp hrxq => ?none, fun u rest hcp hrxq => ?unit,
    fun hcp hdone => ?complete, fun hcp hrxq hshort => ?more, fun hcp hshort hroom => ?short,
    fun i hcp hroom hdecode => ?frame⟩
  case noData => rw [act_begin_s1 henc hcp hs1, testAvailable_silent hempty hrxq]; rfl
  case available => rw [act_begin_s1 henc hcp hs1, testAvailable_waiting hrxq]
  case begun => exact act_begin_s2 henc hcp hs1
  case late => rw [act_loop henc hcp, testDeadline_late (deadlinePassed_iff.mpr hlate)]; rfl
  case inTime => rw [act_loop henc hcp, testDeadline_inTime (mt deadlinePassed_iff.mp hin.not_gt)]
  case none => rw [act_read henc hcp, readUnit_nil hrxq]
  case unit => rw [act_read henc hcp, readUnit_cons hrxq, exec_decodeUnit]
  case complete => rw [act_eof henc hcp, testGap_complete hdone]
  case more => rw [act_eof henc hcp, testGap_more hrxq hshort]
  case short => rw [act_finish henc hcp, finishAttempt_short hroom hshort]; rfl
  case frame => exact act_of_decodeBytes henc hcp hroom hdecode

end

end Sys2Proof.Machine
end

section
/-! SUPPORT. A collected frame run for RECEIVE (spec 42_decode.md R155 to R159, 43_portchannel.md R183). -/

namespace Sys2Proof.Machine

open Sys2Proof.Safety

theorem ofNat_length_toNat {c : Params} {d : List Byte} (hparams : c.Valid) (hlen : d.length ≤ c.maxPayload) :
    (BitVec.ofNat 8 d.length).toNat = d.length := by
  obtain ⟨-, hmax, -⟩ := hparams
  rw [BitVec.toNat_ofNat, Nat.mod_eq_of_lt (by omega)]

/-- Settles O15. -/
theorem frameIsLatched : Obligations.FrameIsLatched := by
  intro p d s hparams hlen hop
  have hexec : exec (.frame p d (checksum p d)) s = .next (endOp (verified p d s)) :=
    (finishFrame_verified hlen).trans (congrArg _ (deliver_receive .ok (s := verified p d s) hop))
  exact ⟨_, hexec, rfl, rfl, ofNat_length_toNat hparams hlen, fun _ hi => byteAt_verified_payload p d s hi,
    fun _ hi => byteAt_verified_beyond p d s hi, rfl⟩

/-- `s` when a frame that does not verify has been dropped (R157, R159). -/
def rejected (p : Byte) (d : List Byte) (ck : Half) (s : State) : State :=
  { s with
    cursor := 0
    cp := .dOff
    rxKind := .checksumMismatch
    diagLog := s.diagLog ++
      [.frameRx (p :: (d ++ be16Pack ck)) ck (checksum p d), .fail .checksumMismatch (checksum p d)] }

theorem finishFrame_rejected {p : Byte} {d : List Byte} {ck : Half} {s : State} (h : ck ≠ checksum p d) :
    finishFrame p d ck s = .next (deliver .checksumMismatch (rejected p d ck s)) := by
  rw [finishFrame, if_neg h, rejected, List.append_cons]
  rfl

/-- Settles O16: the three rows finish the attempt alike. -/
theorem corruptFrameIsRejected : Obligations.CorruptFrameIsRejected := by
  intro p d ck s hop hck t
  have hfinish : finishFrame p d ck s = .next t :=
    (finishFrame_rejected hck).trans (congrArg _ (deliver_receive .checksumMismatch (s := rejected p d ck s) hop))
  refine ⟨hfinish, ?_, ?_⟩
  · rintro r a rfl
    exact hfinish
  · rintro v rfl
    exact hfinish

end Sys2Proof.Machine
end

section
/-! SUPPORT. The big-step decoder of spec 42_decode.md R161: how many bytes its loop collects, what it makes of them
case by case, and the resynchronization of R167. -/

namespace Sys2Proof.Machine

open Sys2Proof.Safety

/-! ### The split of a frame -/

theorem payloadOf_frame (p : Byte) (d : List Byte) (ck : Half) : payloadOf (p :: (d ++ be16Pack ck)) = d := by
  simp [payloadOf, be16Pack]

theorem checksumOf_frame (p : Byte) (d : List Byte) (ck : Half) : checksumOf (p :: (d ++ be16Pack ck)) = ck := by
  simp [checksumOf, be16Pack, be16Unpack_be16Pack]

/-- Three bytes or more are a frame (R155). -/
theorem exists_frame_of_length {bytes : List Byte} (h : 3 ≤ bytes.length) :
    ∃ p d ck, bytes = p :: (d ++ be16Pack ck) ∧ d.length + 3 = bytes.length := by
  obtain ⟨p, tail, rfl⟩ := List.exists_cons_of_length_pos (Nat.lt_of_lt_of_le (by decide) h)
  obtain ⟨front, low, rfl⟩ := List.eq_nil_or_concat' tail |>.resolve_left (by rintro rfl; simp at h)
  obtain ⟨d, high, rfl⟩ := List.eq_nil_or_concat' front |>.resolve_left (by rintro rfl; simp at h)
  exact ⟨p, d, be16Unpack high low, by simp [be16Pack_be16Unpack], by simp⟩

/-! ### What the loop collects -/

section
variable {c : Params} {got bytes : List Byte} {q : List LineUnit}

/-- The loop stays within BUF and within MAX_LEN. -/
theorem collect_length (hroom : got.length ≤ c.bufCap) (hshort : got.length < c.maxLen) (hcap : 1 ≤ c.bufCap)
    (h : (collect c got q).bytes = some bytes) : bytes.length ≤ c.bufCap ∧ bytes.length ≤ c.maxLen := by
  induction q generalizing got with
  | nil =>
    cases h
    exact ⟨hroom, hshort.le⟩
  | cons x q ih =>
    have hgap {new : List Byte} (hnew : new.length ≤ c.bufCap) (hlong : new.length ≤ c.maxLen)
        (hafter : (afterGap c new q).bytes = some bytes) : bytes.length ≤ c.bufCap ∧ bytes.length ≤ c.maxLen := by
      unfold afterGap at hafter
      split at hafter
      · cases hafter
        exact ⟨hnew, hlong⟩
      · exact ih hnew (by omega) hafter
    cases hx : isMarked x with
    | true =>
      rw [collect_marked hx] at h
      exact hgap (new := [stripUnit x]) hcap (by simp [Params.maxLen]) h
    | false =>
      by_cases hfull : got.length = c.bufCap
      · rw [collect_full hx hfull] at h
        cases h
      · rw [collect_plain hx hfull] at h
        refine hgap ?_ ?_ h <;> simp only [List.length_append, List.length_singleton] <;> omega

theorem collect_fits (hparams : c.Valid) (h : (collect c [] q).bytes = some bytes) :
    bytes.length ≤ c.bufCap ∧ bytes.length ≤ c.maxLen := by
  obtain ⟨-, -, hcap, -⟩ := hparams
  exact collect_length (Nat.zero_le _) (by simp [Params.maxLen]) (by omega) h

/-- Units that neither fill BUF nor reach MAX_LEN leave the loop running. -/
theorem collect_append {x r : List LineUnit} (hroom : got.length + x.length ≤ c.bufCap)
    (hshort : got.length + x.length < c.maxLen) :
    ∃ new events, collect c got (x ++ r) = { collect c new r with events := events ++ (collect c new r).events } := by
  induction x generalizing got with
  | nil => exact ⟨got, [], rfl⟩
  | cons u x ih =>
    rw [List.length_cons] at hroom hshort
    cases hu : isMarked u with
    | true =>
      have hone : [stripUnit u].length = 1 := rfl
      obtain ⟨new, events, hrest⟩ := ih (got := [stripUnit u]) (by omega) (by omega)
      refine ⟨new, resyncOf got ++ events, ?_⟩
      rw [List.cons_append, collect_marked hu, afterGap, if_neg (by omega), hrest, List.append_assoc]
    | false =>
      have hlen : (got ++ [stripUnit u]).length = got.length + 1 := List.length_append
      obtain ⟨new, events, hrest⟩ := ih (got := got ++ [stripUnit u]) (by omega) (by omega)
      refine ⟨new, events, ?_⟩
      rw [List.cons_append, collect_plain hu (by omega), afterGap, if_neg (by omega), hrest]

/-- Whatever was collected before it, a frame that fits is collected whole (R149). -/
theorem collect_frame {p : Byte} {d : List Byte} (hlen : d.length ≤ c.maxPayload) (hcap : d.length + 3 ≤ c.bufCap) :
    collect c got (encodeFrame p d) =
      { bytes := some (p :: (d ++ be16Pack (checksum p d))), rest := [], events := resyncOf got } := by
  have hbytes : [p].length + (d ++ be16Pack (checksum p d)).length = d.length + 3 := by simp [be16Pack]; omega
  have hshort : ¬ c.maxLen ≤ [p].length := by simp [Params.maxLen]
  rw [encodeFrame_eq, collect_marked (isMarked_markUnit p), stripUnit_markUnit, afterGap, if_neg hshort,
    collect_map_plainUnit (hbytes.trans_le (Nat.add_le_add_right hlen 3)) (hbytes.trans_le hcap), List.append_nil]
  rfl

end

/-! ### `decode_queue`, case by case -/

section
variable {c : Params} {q : List LineUnit}

theorem decodeQueue_nil (c : Params) :
    decodeQueue c [] = { kind := .noData, port := 0, payload := [], rest := [], events := [] } := rfl

theorem decodeQueue_overflow (hq : q ≠ []) (h : (collect c [] q).bytes = none) :
    decodeQueue c q = {
      kind := .overflow, port := 0, payload := [], rest := (collect c [] q).rest
      events := (collect c [] q).events ++ [.fail .overflow 0] } := by
  simp [decodeQueue, hq, h]

theorem decodeQueue_truncated {bytes : List Byte} (hq : q ≠ []) (h : (collect c [] q).bytes = some bytes)
    (hshort : bytes.length < 3) :
    decodeQueue c q = {
      kind := .truncated, port := 0, payload := [], rest := (collect c [] q).rest
      events := (collect c [] q).events ++ [.fail .truncated (BitVec.ofNat 16 bytes.length)] } := by
  simp [decodeQueue, hq, h, hshort]

theorem decodeQueue_verified {p : Byte} {d : List Byte} (hq : q ≠ [])
    (h : (collect c [] q).bytes = some (p :: (d ++ be16Pack (checksum p d)))) :
    decodeQueue c q = {
      kind := .ok, port := p, payload := d, rest := (collect c [] q).rest
      events := (collect c [] q).events ++
        [.frameRx (p :: (d ++ be16Pack (checksum p d))) (checksum p d) (checksum p d)] } := by
  have hlong : ¬ (p :: (d ++ be16Pack (checksum p d))).length < 3 := by simp [be16Pack]
  simp only [decodeQueue, if_neg hq, h, if_neg hlong, payloadOf_frame, checksumOf_frame, List.getD_cons_zero, if_true]

theorem decodeQueue_rejected {p : Byte} {d : List Byte} {ck : Half} (hq : q ≠ [])
    (h : (collect c [] q).bytes = some (p :: (d ++ be16Pack ck))) (hck : ck ≠ checksum p d) :
    decodeQueue c q = {
      kind := .checksumMismatch, port := 0, payload := [], rest := (collect c [] q).rest
      events := (collect c [] q).events ++
        [.frameRx (p :: (d ++ be16Pack ck)) ck (checksum p d), .fail .checksumMismatch (checksum p d)] } := by
  have hlong : ¬ (p :: (d ++ be16Pack ck)).length < 3 := by simp [be16Pack]
  simp only [decodeQueue, if_neg hq, h, if_neg hlong, payloadOf_frame, checksumOf_frame, List.getD_cons_zero,
    if_neg hck]

/-- Settles O27: the units before the frame leave the loop running, and their bytes give way to the frame's. -/
theorem resynchronizationFindsTheFrame : Obligations.ResynchronizationFindsTheFrame := by
  intro c x q d _ _ hroom hshort hlen hcap
  have hq : x ++ encodeFrame q d ≠ [] := by simp [encodeFrame_eq]
  obtain ⟨new, events, hcollect⟩ := collect_append (c := c) (got := []) (x := x) (r := encodeFrame q d)
    (by simpa using hroom) (by simpa using hshort)
  rw [collect_frame hlen hcap] at hcollect
  rw [decodeQueue_verified hq (congrArg Collected.bytes hcollect), hcollect]
  exact ⟨rfl, rfl, rfl, rfl⟩

end

end Sys2Proof.Machine
end

section
/-! SUPPORT. A whole decode attempt to which no unit arrives (spec 42_decode.md R143 to R159), whatever operation runs
it: it ends as `decode_queue` says (R161) or by the timeout. RECEIVE and RECV_REQ are one such attempt. -/

namespace Sys2Proof.Machine

open Sys2Proof.Safety

/-! ### The outcomes of `decode_queue` -/

/-- `decode_queue` knows no timeout, and an OK frame fits in RXP. -/
theorem decodeQueue_outcome {c : Params} (hparams : c.Valid) (q : List LineUnit) :
    (decodeQueue c q).kind ≠ .timeout ∧
      ((decodeQueue c q).kind = .ok → (decodeQueue c q).payload.length ≤ c.maxPayload) := by
  by_cases hq : q = []
  · rw [hq, decodeQueue_nil]
    exact ⟨nofun, nofun⟩
  cases hbytes : (collect c [] q).bytes with
  | none =>
    rw [decodeQueue_overflow hq hbytes]
    exact ⟨nofun, nofun⟩
  | some bytes =>
    by_cases hshort : bytes.length < 3
    · rw [decodeQueue_truncated hq hbytes hshort]
      exact ⟨nofun, nofun⟩
    obtain ⟨-, hframe⟩ := collect_fits hparams hbytes
    obtain ⟨p, d, ck, rfl, hlen⟩ := exists_frame_of_length (Nat.le_of_not_lt hshort)
    by_cases hck : ck = checksum p d
    · rw [decodeQueue_verified hq (hck ▸ hbytes)]
      exact ⟨nofun, fun _ => Nat.le_of_add_le_add_right (hlen.trans_le hframe)⟩
    · rw [decodeQueue_rejected hq hbytes hck]
      exact ⟨nofun, nofun⟩

/-! ### The end of an attempt -/

/-- `s` when an attempt has ended as `r` says; `log` are the events before it. -/
def ended (r : QueueResult) (log : List DiagEvent) (s : State) : State :=
  { s with
    cursor := 0
    cp := .dOff
    rxq := r.rest
    rxKind := r.kind
    rxPort := if r.kind = .ok then r.port else s.rxPort
    rxLen := if r.kind = .ok then BitVec.ofNat 8 r.payload.length else s.rxLen
    rxp := if r.kind = .ok then s.rxp.writeList 0 r.payload else s.rxp
    diagLog := log ++ r.events }

/-- The result of an attempt that has run out of time and leaves `rest` (R145). -/
def timedOut (rest : List LineUnit) : QueueResult where
  kind := .timeout
  port := 0
  payload := []
  rest := rest
  events := [.timeoutEvt]

section
variable {s u : State} {q : List LineUnit} {log : List DiagEvent}

theorem ended_noData (hempty : s.cursor = 0) (hrxq : s.rxq = []) :
    ended (decodeQueue s.cfg []) s.diagLog s = raiseKind .noData s := by
  simp [ended, decodeQueue_nil, raiseKind, hempty, hrxq]

theorem ended_overflow (hq : q ≠ []) (hbytes : (collect s.cfg [] q).bytes = none)
    (hrest : s.rxq = (collect s.cfg [] q).rest) (hlog : s.diagLog = log ++ (collect s.cfg [] q).events) :
    ended (decodeQueue s.cfg q) log s = overflowed s := by
  rw [decodeQueue_overflow hq hbytes, ended, ← hrest, ← List.append_assoc, ← hlog]
  rfl

/-- What waits at `D_FINISH` is finished as `decode_queue` says (R153 to R159). -/
theorem finishAttempt_decoded (hparams : s.cfg.Valid) (hq : q ≠ [])
    (hbytes : (collect s.cfg [] q).bytes = some (collectedBytes s)) (hrest : s.rxq = (collect s.cfg [] q).rest)
    (hlog : s.diagLog = log ++ (collect s.cfg [] q).events) :
    finishAttempt s = .next (deliver (decodeQueue s.cfg q).kind (ended (decodeQueue s.cfg q) log s)) := by
  obtain ⟨hroom, hframe⟩ := collect_fits hparams hbytes
  by_cases hshort : (collectedBytes s).length < 3
  · rw [decodeQueue_truncated hq hbytes hshort, ended, ← hrest, ← List.append_assoc, ← hlog, collectedBytes_length]
    rw [collectedBytes_length] at hroom hshort
    exact finishAttempt_short hroom hshort
  · obtain ⟨p, d, ck, hsplit, hlen⟩ := exists_frame_of_length (Nat.le_of_not_lt hshort)
    rw [hsplit] at hbytes
    rw [finishAttempt_frame hsplit (hlen.trans_le hroom)]
    by_cases hck : ck = checksum p d
    · subst hck
      rw [decodeQueue_verified hq hbytes, ended, ← hrest, ← List.append_assoc, ← hlog]
      exact finishFrame_verified (Nat.le_of_add_le_add_right (hlen.trans_le hframe))
    · rw [decodeQueue_rejected hq hbytes hck, ended, ← hrest, ← List.append_assoc, ← hlog]
      exact finishFrame_rejected hck

theorem InAttempt.reaches_noData (h : InAttempt s) (hcp : s.cp = .dBegin) (hs1 : s.s1Seen = false)
    (hempty : s.cursor = 0) (hrxq : s.rxq = []) :
    Reaches 1 s (deliver (decodeQueue s.cfg s.rxq).kind (ended (decodeQueue s.cfg s.rxq) s.diagLog (passed s))) := by
  have hact : act (passed s) = .next (endAttempt .noData (passed s)) := by
    rw [act_begin_s1 (s := passed s) h.noFrame hcp hs1, testAvailable_silent (s := passed s) hempty hrxq]
  have hended : ended (decodeQueue s.cfg []) s.diagLog (passed s) = raiseKind .noData (passed s) :=
    ended_noData (s := passed s) hempty hrxq
  rw [hrxq, hended]
  exact h.reaches hact

theorem InAttempt.reaches_decoded (h : InAttempt s) (hcp : s.cp = .dFinish) (hq : q ≠ [])
    (hbytes : (collect s.cfg [] q).bytes = some (collectedBytes s)) (hrest : s.rxq = (collect s.cfg [] q).rest)
    (hlog : s.diagLog = log ++ (collect s.cfg [] q).events) :
    Reaches 1 s (deliver (decodeQueue s.cfg q).kind (ended (decodeQueue s.cfg q) log (passed s))) :=
  h.reaches ((act_finish (s := passed s) h.noFrame hcp).trans
    (finishAttempt_decoded (s := passed s) h.params hq hbytes hrest hlog))

end

/-- The attempt that began in `s` ends in `u` as `r` says, after the events `log`: by the timeout, which needs more
than `TIMEOUT` milliseconds, or as `decode_queue` says. -/
structure AttemptEnds (s : State) (r : QueueResult) (log : List DiagEvent) (u : State) : Prop where
  view : attemptView u = attemptView s
  beyond : ∀ i, s.rxq.length ≤ i → byteAt u .buf i = byteAt s .buf i
  outcome : (r.kind = .timeout ∧ s.timeout.toNat < scriptTicks s) ∨ (r = decodeQueue s.cfg s.rxq ∧ log = s.diagLog)

/-- From S2 on, the loop of an attempt that has found a unit waiting. -/
theorem InAttempt.loopRuns_begun {s : State} (h : InAttempt s) (hempty : s.cursor = 0) (hrxq : s.rxq ≠ []) :
    ∃ k u, k ≤ 3 * s.rxq.length ∧ attemptView u = attemptView s ∧
      (∀ i, s.rxq.length ≤ i → byteAt u .buf i = byteAt s .buf i) ∧
      LoopEnds (collect s.cfg [] s.rxq) k (begun s) u := by
  obtain ⟨k, u, hk, hview, hbeyond, hends⟩ := (h.collecting_begun hempty rfl).loopRuns hrxq
  exact ⟨k, u, hk, hview.trans (attemptView_begun s), fun i hi => hbeyond i (by simpa using hi), hends⟩

/-- An attempt to which nothing arrives ends, and hands its outcome to the operation. -/
theorem InAttempt.ends {s : State} (h : InAttempt s) (hcp : s.cp = .dBegin) (hs1 : s.s1Seen = false)
    (hempty : s.cursor = 0) :
    ∃ k r log u, k ≤ 3 * s.rxq.length + 3 ∧ AttemptEnds s r log u ∧
      Reaches k s (deliver r.kind (ended r log u)) := by
  by_cases hrxq : s.rxq = []
  · exact ⟨1, decodeQueue s.cfg s.rxq, s.diagLog, passed s, by omega, ⟨rfl, fun _ _ => rfl, .inr ⟨rfl, rfl⟩⟩,
      h.reaches_noData hcp hs1 hempty hrxq⟩
  have hbegun := h.reaches_begun hcp hs1 hrxq
  obtain ⟨k, u, hk, hview, hbeyond, hends⟩ := h.loopRuns_begun hempty hrxq
  have hcfg : u.cfg = s.cfg := (congrArg State.cfg hview :)
  cases hends with
  | timeout late reaches =>
    exact ⟨2 + k, timedOut u.rxq, u.diagLog, u, by omega,
      ⟨hview, hbeyond, .inl ⟨rfl, Nat.lt_of_not_le fun hin => late (punctual_begun hin)⟩⟩, hbegun.trans reaches⟩
  | overflow bytes rest events reaches =>
    refine ⟨2 + k, decodeQueue s.cfg s.rxq, s.diagLog, u, by omega, ⟨hview, hbeyond, .inr ⟨rfl, rfl⟩⟩, ?_⟩
    rw [← hcfg] at bytes rest events ⊢
    rw [ended_overflow (log := s.diagLog) hrxq bytes rest events, decodeQueue_overflow hrxq bytes]
    exact hbegun.trans reaches
  | collected bytes rest events reaches running finish =>
    have hdecoded := running.reaches_decoded (q := s.rxq) (log := s.diagLog) finish hrxq (hcfg ▸ bytes) (hcfg ▸ rest)
      (hcfg ▸ events)
    rw [hcfg] at hdecoded
    exact ⟨2 + k + 1, decodeQueue s.cfg s.rxq, s.diagLog, passed u, by omega, ⟨hview, hbeyond, .inr ⟨rfl, rfl⟩⟩,
      (hbegun.trans reaches).trans hdecoded⟩

end Sys2Proof.Machine
end

section
/-! SUPPORT. The commands of one decode attempt when no unit arrives: RECEIVE (spec 43_portchannel.md R183) and RECV_REQ
(45_device.md R221, R222). -/

namespace Sys2Proof.Machine

open Sys2Proof.Safety

/-! ### What an attempt leaves of the state -/

section
variable {op : Nibble} {p : Byte} {a b : Half} {r : QueueResult} {log : List DiagEvent} {s u v : State}

/-- The command `op` has run one attempt from `s`, which ended as `r` says: the outcome and the latched result (R158),
and what neither RECEIVE nor RECV_REQ has any business with. -/
structure AttemptRun (op : Nibble) (p : Byte) (a b : Half) (r : QueueResult) (s t : State) : Prop where
  quiescent : Quiescent t
  empty : t.cursor = 0
  latch : Latched op p a b t
  request : KeepsRequest s t
  beyond : ∀ i, s.rxq.length ≤ i → byteAt t .buf i = byteAt s .buf i
  kind : t.rxKind = r.kind
  rest : t.rxq = r.rest
  latched : r.kind = .ok →
    t.rxPort = r.port ∧ t.rxLen.toNat = r.payload.length ∧
      (∀ i, (h : i < r.payload.length) → byteAt t .rxp i = r.payload[i]) ∧
      (∀ i, r.payload.length ≤ i → byteAt t .rxp i = byteAt s .rxp i)
  kept : r.kind ≠ .ok → t.rxPort = s.rxPort ∧ t.rxLen = s.rxLen ∧ ∀ i, byteAt t .rxp i = byteAt s .rxp i

theorem AttemptEnds.payload_fits (h : AttemptEnds s r log u) (hparams : s.cfg.Valid) (hok : r.kind = .ok) :
    r.payload.length ≤ s.cfg.maxPayload := by
  obtain ⟨hlate, -⟩ | ⟨rfl, -⟩ := h.outcome
  · cases hok.symm.trans hlate
  · obtain ⟨-, hfits⟩ := decodeQueue_outcome hparams s.rxq
    exact hfits hok

theorem rxp_ended_ok (hok : r.kind = .ok) : (ended r log u).rxp = u.rxp.writeList 0 r.payload := if_pos hok

theorem byteAt_ended_payload (log : List DiagEvent) (u : State) (hok : r.kind = .ok) {i : Nat}
    (h : i < r.payload.length) :
    byteAt (ended r log u) .rxp i = r.payload[i] := by
  have hread := Memory.read_writeList_same u.rxp 0 r.payload i h
  rw [Nat.zero_add, ← rxp_ended_ok (log := log) hok] at hread
  exact byteAt_of_read hread

theorem byteAt_ended_beyond (log : List DiagEvent) (u : State) (hok : r.kind = .ok) {i : Nat}
    (h : r.payload.length ≤ i) :
    byteAt (ended r log u) .rxp i = byteAt u .rxp i := by
  have hread := Memory.read_writeList_other u.rxp 0 r.payload i (.inr (by omega))
  rw [← rxp_ended_ok (log := log) hok] at hread
  exact byteAt_congr hread rfl

theorem byteAt_ended_failed (log : List DiagEvent) (u : State) (hfail : r.kind ≠ .ok) (i : Nat) :
    byteAt (ended r log u) .rxp i = byteAt u .rxp i :=
  byteAt_congr (congrArg (fun m => Memory.read m i) (if_neg hfail)) rfl

/-- The attempt of an accepted command, its operation then over. -/
theorem AttemptEnds.attemptRun (h : AttemptEnds (startAttempt (accept (commandWord op 0 p a b) s)) r log u)
    (hparams : s.cfg.Valid) (hs : Quiescent s) : AttemptRun op p a b r s (endOp (ended r log u)) := by
  have hview := h.view
  rw [accept_commandWord] at hview
  have hrxp (i : Nat) : byteAt u .rxp i = byteAt s .rxp i :=
    byteAt_congr (congrArg (fun w => Memory.read w.rxp i) hview) (congrArg State.epoch hview :)
  have hport : u.rxPort = s.rxPort := (congrArg State.rxPort hview :)
  have hlen : u.rxLen = s.rxLen := (congrArg State.rxLen hview :)
  exact {
    quiescent := ⟨rfl, rfl, (congrArg State.ctl hview).trans hs.idle, (congrArg State.enc hview).trans hs.noFrame⟩
    empty := rfl
    latch := ⟨(congrArg State.curOp hview :), (congrArg State.opPort hview :), (congrArg State.opA hview :),
      (congrArg State.opB hview :)⟩
    request := ⟨(congrArg State.ctl hview :), (congrArg State.tReq hview :), (congrArg State.revIdx hview :),
      (congrArg State.val0 hview :), (congrArg State.val1 hview :), (congrArg State.val2 hview :)⟩
    beyond := h.beyond
    kind := rfl
    rest := rfl
    latched := fun hok => ⟨if_pos hok,
      (congrArg BitVec.toNat (if_pos hok)).trans (ofNat_length_toNat hparams (h.payload_fits hparams hok)),
      fun _ hi => byteAt_ended_payload log u hok hi, fun i hi => (byteAt_ended_beyond log u hok hi).trans (hrxp i)⟩
    kept := fun hfail => ⟨(if_neg hfail).trans hport, (if_neg hfail).trans hlen, fun i =>
      (byteAt_ended_failed log u hfail i).trans (hrxp i)⟩ }

theorem AttemptEnds.device (h : AttemptEnds (startAttempt (accept (commandWord op 0 p a b) s)) r log u) :
    KeepsDevice s u :=
  ⟨(congrArg State.reqOk h.view :), (congrArg State.reqPort h.view :), (congrArg State.reqRegister h.view :),
    (congrArg State.reqParameter h.view :)⟩

/-! ### A command of one attempt -/

/-- An accepted command that only runs an attempt, and that every outcome ends. -/
theorem perform_startAttempt (hop : isReservedOp op = false) (hsend : op ≠ opSend) (hload : op ≠ opLoadp)
    (hdone : ∀ k v, v.curOp = op → (deliver k v).busy = false) (hparams : s.cfg.Valid) (hs : Quiescent s)
    (hcalm : NoArrivals s) :
    ∃ r log u, AttemptEnds (startAttempt (accept (commandWord op 0 p a b) s)) r log u ∧
      (ended r log u).curOp = op ∧
      perform (commandWord op 0 p a b) startAttempt s = .next (deliver r.kind (ended r log u)) := by
  have haccepted : refuses s.cfg s.busy (commandWord op 0 p a b) = false :=
    (refuses_plain _ _ _ _ _ _ hop hsend hload).trans hs.notBusy
  have hattempt : InAttempt (startAttempt (accept (commandWord op 0 p a b) s)) :=
    ⟨rfl, hs.noFrame, nofun, hparams, hcalm⟩
  obtain ⟨k, r, log, u, hk, hends, hreaches⟩ := hattempt.ends rfl rfl rfl
  have hcur : (ended r log u).curOp = op := (congrArg State.curOp hends.view :).trans (cmdOp_commandWord ..)
  have hbound : k ≤ stepBound (startAttempt (accept (commandWord op 0 p a b) s)) := by
    simp only [stepBound, unitsToCome]
    omega
  refine ⟨r, log, u, hends, hcur, ?_⟩
  rw [perform_accepted haccepted]
  exact runOperation_of_reaches hreaches hbound (atRest_of_idle (hdone _ _ hcur))

theorem noReset_of_noArrivals (h : NoArrivals s) : NoReset s := fun m hm => by
  obtain ⟨-, hrst, -⟩ := h m hm
  exact hrst

/-! ### RECEIVE -/

/-- Settles O25: the one attempt of RECEIVE ends as `decode_queue` says or by the timeout. -/
theorem receiveIsDecodeQueue : Obligations.ReceiveIsDecodeQueue := by
  intro p a b s hparams hs hcalm
  obtain ⟨r, log, u, hends, hcur, hperform⟩ := perform_startAttempt (op := opReceive) (p := p) (a := a) (b := b) rfl
    (by decide) (by decide) (fun k v hv => congrArg State.busy (deliver_receive k hv)) hparams hs hcalm
  rw [deliver_receive _ hcur] at hperform
  have hexec : exec (.receive p a b) s = .next (endOp (ended r log u)) := hperform
  have hrun := hends.attemptRun hparams hs
  obtain ⟨-, -, -, -, -, hkept⟩ :=
    commandsKeepOtherRegisters p a b s (endOp (ended r log u)) (noReset_of_noArrivals hcalm) hs.noFrame
  obtain ⟨hcontroller, hdevice, hchannel, htxq⟩ := hkept hexec
  refine ⟨_, hexec, hrun.quiescent, hrun.empty, hrun.latch, htxq, hchannel, hcontroller, hdevice, hrun.request,
    hrun.beyond, ?_, hrun.kept, ?_⟩
  · obtain ⟨hlate, -⟩ | ⟨rfl, rfl⟩ := hends.outcome
    · exact .inl hlate
    · exact .inr ⟨hrun.kind, hrun.rest, rfl, hrun.latched⟩
  · intro hin
    obtain ⟨-, hlate⟩ | ⟨rfl, -⟩ := hends.outcome
    · exact absurd hin (Nat.not_le_of_lt hlate)
    · obtain ⟨hkind, -⟩ := decodeQueue_outcome hparams s.rxq
      exact hkind

/-! ### RECV_REQ -/

theorem noArrivals_of_quiet (h : QuietScript s) : NoArrivals s := fun m hm => h m hm ▸ ⟨rfl, rfl, rfl⟩

theorem scriptTicks_of_quiet (h : QuietScript s) : scriptTicks s = 0 := by
  rw [scriptTicks, List.sum_eq_zero_iff]
  intro n hn
  obtain ⟨m, hm, rfl⟩ := List.mem_map.mp hn
  rw [h m hm]
  rfl

theorem recvReqResult_badLength (hlen : v.rxLen ≠ 4) :
    recvReqResult .ok v = { v with
      reqOk := false, busy := false, diagLog := v.diagLog ++ [.fail .badLength (v.rxLen.setWidth 16)] } := by
  rw [recvReqResult, if_pos rfl, if_neg hlen]
  rfl

theorem recvReqResult_failed {k : Kind} (hfail : k ≠ .ok) :
    recvReqResult k v = { v with reqOk := false, busy := false } := by
  rw [recvReqResult, if_neg hfail]
  rfl

/-- RECV_REQ ends, and writes its own registers and the log only. -/
theorem recvReqResult_eq (k : Kind) (v : State) : ∃ ok port register parameter l,
    recvReqResult k v = { endOp v with
      reqOk := ok, reqPort := port, reqRegister := register, reqParameter := parameter, diagLog := l } := by
  unfold recvReqResult
  split
  · split
    · exact ⟨_, _, _, _, _, rfl⟩
    · exact ⟨_, _, _, _, _, rfl⟩
  · exact ⟨_, _, _, _, _, rfl⟩

theorem AttemptRun.recvReqResult (k : Kind) (h : AttemptRun op p a b r s (endOp v)) :
    AttemptRun op p a b r s (recvReqResult k v) := by
  obtain ⟨ok, port, register, parameter, l, heq⟩ := recvReqResult_eq k v
  obtain ⟨⟨hbusy, hoff, hidle, henc⟩, hempty, hlatch, hrequest, hbeyond, hkind, hrest, hlatched, hkept⟩ := h
  rw [heq]
  exact ⟨⟨hbusy, hoff, hidle, henc⟩, hempty, hlatch, hrequest, hbeyond, hkind, hrest, hlatched, hkept⟩

/-- The request in a payload of 4 bytes that has been latched (R221, R222). -/
theorem recvReqResult_taken {x y : Half} (hok : r.kind = .ok) (hpayload : r.payload = requestPayload x y) :
    recvReqResult r.kind (ended r log u) = { ended r log u with
      reqPort := r.port, reqRegister := x, reqParameter := y, reqOk := true, busy := false } := by
  have hbyte {i : Nat} (hi : i < 4) : byteAt (ended r log u) .rxp i = (requestPayload x y)[i]'hi :=
    (byteAt_ended_payload log u hok (hi.trans_eq (congrArg List.length hpayload).symm)).trans
      (List.getElem_of_eq hpayload _)
  have hlen : (ended r log u).rxLen = 4 := (if_pos hok).trans (by rw [hpayload]; rfl)
  have hport : (ended r log u).rxPort = r.port := if_pos hok
  rw [hok, ← hport]
  exact recvReqResult_ok hlen (hbyte (by decide)) (hbyte (by decide)) (hbyte (by decide)) (hbyte (by decide))

/-- A payload of another length, its length in the event (R242). -/
theorem recvReqResult_ended_badLength (hok : r.kind = .ok) (hfits : r.payload.length < 256)
    (hlen : r.payload.length ≠ 4) :
    recvReqResult r.kind (ended r log u) = { ended r log u with
      reqOk := false, busy := false
      diagLog := log ++ r.events ++ [.fail .badLength (BitVec.ofNat 16 r.payload.length)] } := by
  have hrxLen : (ended r log u).rxLen = BitVec.ofNat 8 r.payload.length := if_pos hok
  have htoNat : (ended r log u).rxLen.toNat = r.payload.length := by
    rw [hrxLen, BitVec.toNat_ofNat, Nat.mod_eq_of_lt hfits]
  have hne : (ended r log u).rxLen ≠ 4 := fun heq => hlen (by rw [← htoNat, heq]; rfl)
  rw [hok, recvReqResult_badLength hne, ← htoNat, BitVec.ofNat_toNat]
  rfl

/-- Settles O28: on a quiet line the one attempt of RECV_REQ ends as `decode_queue` says. -/
theorem recvReqTakesOneRequest : Obligations.RecvReqTakesOneRequest := by
  intro p a b s hparams hs hquiet
  have hcalm := noArrivals_of_quiet hquiet
  obtain ⟨r, log, u, hends, hcur, hperform⟩ := perform_startAttempt (op := opRecvReq) (p := p) (a := a) (b := b) rfl
    (by decide) (by decide) (fun k v hv => by
      obtain ⟨_, _, _, _, _, heq⟩ := recvReqResult_eq k v
      rw [deliver_recvReq k hv, heq]
      rfl) hparams hs hcalm
  rw [deliver_recvReq _ hcur] at hperform
  have hexec : exec (.recvReq p a b) s = .next (recvReqResult r.kind (ended r log u)) := hperform
  have hrun := (hends.attemptRun hparams hs).recvReqResult r.kind
  have hfits (hok : r.kind = .ok) : r.payload.length ≤ s.cfg.maxPayload := hends.payload_fits hparams hok
  obtain ⟨-, hport, hregister, hparameter⟩ := hends.device
  obtain ⟨-, -, -, -, hkept, -⟩ := commandsKeepOtherRegisters p a b s _ (noReset_of_noArrivals hcalm) hs.noFrame
  obtain ⟨hcontroller, hchannel, htxq⟩ := hkept hexec
  have houtcome : r = decodeQueue s.cfg s.rxq ∧ log = s.diagLog := by
    refine hends.outcome.resolve_left fun ⟨_, hlate⟩ => ?_
    exact Nat.not_lt_zero _ (hlate.trans_eq (scriptTicks_of_quiet (s := startAttempt (accept _ s)) hquiet))
  obtain ⟨rfl, rfl⟩ := houtcome
  refine ⟨_, hexec, hrun.quiescent, hrun.empty, hrun.latch, htxq, hchannel, hcontroller, hrun.request, hrun.beyond,
    hrun.kind, hrun.rest, hrun.latched, hrun.kept, ?_, ?_, ?_⟩
  · rintro x y q hok hpayload rfl
    rw [recvReqResult_taken hok hpayload]
    exact ⟨rfl, rfl, rfl, rfl, rfl⟩
  · intro hok hlen
    obtain ⟨-, hmax, -⟩ := hparams
    rw [recvReqResult_ended_badLength hok (by have := hfits hok; omega) hlen]
    exact ⟨rfl, hport, hregister, hparameter, rfl⟩
  · intro hfail
    rw [recvReqResult_failed hfail]
    exact ⟨rfl, hport, hregister, hparameter, rfl⟩

end

end Sys2Proof.Machine
end

section
/-! SUPPORT. Who writes RX_KIND (spec 10_state.md R25): only the end of an attempt, and OVERFLOW only the append to a
full buffer (42_decode.md R150), which needs a BUF smaller than a frame (R154). -/

namespace Sys2Proof.Safety

open Sys2Proof.Machine

/-! ### What leaves RX_KIND alone -/

theorem queryResult_rxKind (r : Resolution) (s : State) : (queryResult r s).rxKind = s.rxKind :=
  (congrArg State.rxKind (queryResult_view r s) :)

theorem controlResult_rxKind (r : Resolution) (s : State) : (controlResult r s).rxKind = s.rxKind :=
  (congrArg State.rxKind (controlResult_view r s) :)

theorem scanResult_rxKind (r : Resolution) (s : State) : (scanResult r s).rxKind = s.rxKind :=
  (congrArg State.rxKind (scanResult_view r s) :)

theorem recvReqResult_rxKind (k : Kind) (s : State) : (recvReqResult k s).rxKind = s.rxKind :=
  (congrArg State.rxKind (recvReqResult_view k s) :)

theorem setVal_rxKind (i : Fin 3) (v : Half) (s : State) : (setVal i v s).rxKind = s.rxKind := by
  unfold setVal
  split <;> rfl

theorem revisionResult_rxKind (r : Resolution) (s : State) : (revisionResult r s).rxKind = s.rxKind := by
  unfold revisionResult
  split
  · split <;> exact setVal_rxKind _ _ s
  · rfl

theorem commandResult_rxKind (r : Resolution) (s : State) : (commandResult r s).rxKind = s.rxKind := by
  unfold commandResult
  split_ifs
  · exact queryResult_rxKind r s
  · exact controlResult_rxKind r s
  · exact scanResult_rxKind r s
  · exact revisionResult_rxKind r s

theorem concludeRequest_rxKind (r : Resolution) (s : State) : (concludeRequest r s).rxKind = s.rxKind :=
  commandResult_rxKind r { s with ctl := .idle }

theorem resolveOk_rxKind (s : State) : (resolveOk s).rxKind = s.rxKind := by
  unfold resolveOk
  split <;> rw [concludeRequest_rxKind]
  rfl

theorem requestOutcome_rxKind (k : Kind) (s : State) : (requestOutcome k s).rxKind = s.rxKind := by
  cases k with
  | noData => rfl
  | ok => exact resolveOk_rxKind s
  | _ => exact concludeRequest_rxKind _ s

theorem deliver_rxKind (k : Kind) (s : State) : (deliver k s).rxKind = s.rxKind := by
  unfold deliver
  split_ifs
  · exact requestOutcome_rxKind k s
  · exact recvReqResult_rxKind k s
  · rfl

theorem pollDeadline_rxKind (s : State) : (pollDeadline s).rxKind = s.rxKind := by
  unfold pollDeadline
  split
  · exact concludeRequest_rxKind _ _
  · rfl

theorem leaveResolved_rxKind (s : State) : (leaveResolved s).rxKind = s.rxKind := by
  unfold leaveResolved
  split
  · exact commandResult_rxKind _ _
  · rfl
  · rfl

theorem betweenAttempts_rxKind (s : State) : (betweenAttempts s).rxKind = s.rxKind := by
  unfold betweenAttempts controllerTick
  split
  · split
    · rfl
    · exact pollDeadline_rxKind s
    · exact leaveResolved_rxKind s
  · rfl

theorem encodeTick_rxKind (r : EncRun) (s : State) : (encodeTick r s).rxKind = s.rxKind := by
  have hsent (u : State) : (frameSent u).rxKind = u.rxKind := by
    unfold frameSent
    split <;> rfl
  cases h : r.stage with
  | portUnit => rw [encodeTick_port s h]; rfl
  | payloadUnit b rest => rw [encodeTick_payload s h]; rfl
  | checksumHigh => rw [encodeTick_high s h]; rfl
  | checksumLow => rw [encodeTick_low s h, hsent]; rfl

theorem firstAction_cfg (s : State) : (firstAction s).cfg = s.cfg := by
  unfold firstAction
  split_ifs <;> rfl

theorem firstAction_rxKind (s : State) : (firstAction s).rxKind = s.rxKind := by
  unfold firstAction
  split_ifs <;> rfl

theorem moved_rxKind (s : State) : (moved s).rxKind = s.rxKind := by
  unfold moved refusePresented
  split <;> rfl

/-! ### What writes it -/

theorem endAttempt_rxKind (k : Kind) (s : State) : (endAttempt k s).rxKind = k := deliver_rxKind k (raiseKind k s)

section
variable {s t : State}

/-- Only a DATA that meets a full buffer overflows. -/
theorem storeUnit_overflow {x : LineUnit} (h : storeUnit x s = .next t) (hover : t.rxKind = .overflow) :
    s.rxKind = .overflow ∨ s.cursor.toNat = s.cfg.bufCap := by
  unfold storeUnit at h
  split at h
  · obtain ⟨-, rfl⟩ := storeStart_eq_next h
    refine .inl (hover ▸ ?_)
    split <;> rfl
  · obtain ⟨hfull, -⟩ | ⟨-, rfl⟩ := storeData_eq_next h
    · exact .inr hfull
    · exact .inl hover

theorem finishAttempt_not_overflow (h : finishAttempt s = .next t) : t.rxKind ≠ .overflow := by
  unfold finishAttempt at h
  split_ifs at h
  · cases h
    rw [failTruncated, endAttempt_rxKind]
    nofun
  · obtain ⟨-, -, rfl⟩ | ⟨-, rfl⟩ := finishFrame_eq_next h <;> rw [endAttempt_rxKind] <;> nofun

/-- An action of the block ends in OVERFLOW only at `D_READ` with a full buffer (R150). -/
theorem act_overflow (h : act s = .next t) (hover : t.rxKind = .overflow) :
    s.rxKind = .overflow ∨ (s.cp = .dRead ∧ s.cursor.toNat = s.cfg.bufCap) := by
  cases he : s.enc with
  | some r =>
    rw [act_sending he] at h
    cases h
    exact .inl ((encodeTick_rxKind r s).symm.trans hover)
  | none =>
    cases hc : s.cp with
    | dOff =>
      rw [act_off he hc] at h
      cases h
      exact .inl ((betweenAttempts_rxKind s).symm.trans hover)
    | dBegin =>
      rw [act_begin he hc] at h
      cases h
      revert hover
      unfold testAvailable
      split_ifs
      · exact .inl
      · rw [endAttempt_rxKind]
        nofun
      · exact .inl
    | dLoop =>
      rw [act_loop he hc] at h
      cases h
      revert hover
      unfold testDeadline
      split_ifs
      · rw [endAttempt_rxKind]
        nofun
      · exact .inl
    | dRead =>
      rw [act_read he hc] at h
      cases hq : s.rxq with
      | nil =>
        rw [readUnit_nil hq] at h
        cases h
        exact .inl hover
      | cons x rest =>
        rw [readUnit_cons hq] at h
        exact (storeUnit_overflow h hover).imp_right fun hfull => ⟨rfl, hfull⟩
    | dEof =>
      rw [act_eof he hc] at h
      cases h
      exact .inl hover
    | dFinish =>
      rw [act_finish he hc] at h
      exact absurd hover (finishAttempt_not_overflow h)

/-! ### A BUF that holds a frame -/

/-- The block has room in BUF for every frame, and has not overflowed (R154). -/
structure NoOverflow (s : State) : Prop where
  inv : BlockInv s
  room : s.cfg.maxLen ≤ s.cfg.bufCap
  kind : s.rxKind ≠ .overflow

/-- Where S4 takes a unit fewer than MAX_LEN bytes are collected, so BUF is not full. -/
theorem act_noOverflow (h : NoOverflow s) (hact : act s = .next t) : t.rxKind ≠ .overflow := by
  intro hover
  obtain hkind | ⟨hcp, hfull⟩ := act_overflow hact hover
  · exact h.kind hkind
  · have hshort := h.inv.decode.waiting (.inr hcp)
    exact absurd (hfull ▸ hshort) (Nat.not_lt.mpr h.room)

theorem tick_noOverflow (h : NoOverflow s) (hbusy : s.busy = true) (htick : tick s = .next t) : NoOverflow t := by
  refine ⟨tick_inv h.inv hbusy htick, tick_cfg htick ▸ h.room, ?_⟩
  cases hr : (nextMove s).rst with
  | true =>
    rw [tick, if_pos hr] at htick
    cases htick
    nofun
  | false =>
    rw [tick_of_not_rst hr] at htick
    have hcfg : (moved s).cfg = s.cfg := by simp [moved]
    exact act_noOverflow ⟨moved_inv h.inv, hcfg ▸ h.room, moved_rxKind s ▸ h.kind⟩ htick

theorem perform_noOverflow {w : CmdWord} (h : NoOverflow s) (hperform : perform w firstAction s = .next t) :
    t.rxKind ≠ .overflow := by
  obtain ⟨-, rfl⟩ | ⟨haccepted, hrun⟩ := perform_eq_next hperform
  · exact h.kind
  · have hfirst : NoOverflow (firstAction (accept w s)) :=
      ⟨firstAction_accept_inv h.inv haccepted, (firstAction_cfg _).symm ▸ h.room, (firstAction_rxKind _).symm ▸ h.kind⟩
    exact (runSteps_keeps (fun _ _ hu hbusy htick => tick_noOverflow hu hbusy htick) _ hfirst hrun).kind

/-- Settles O58: no action of a block in the invariant meets a full buffer, and reset leaves RX_KIND at OK. -/
theorem overflowNeedsASmallBuffer : Obligations.OverflowNeedsASmallBuffer := by
  intro s t hinv hroom hkind hnext
  obtain ⟨hbusy, hstep⟩ | ⟨-, -, hstep⟩ | ⟨-, -, hstep⟩ | ⟨-, -, w, q, -, hstep⟩ := step_cases_idle s <;>
    rw [hstep] at hnext
  · exact (tick_noOverflow ⟨hinv, hroom, hkind⟩ hbusy hnext).kind
  · cases hnext
    nofun
  · cases hnext
    exact hkind
  · have hhost : NoOverflow { environmentActs s with hostq := q } :=
      ⟨(environmentActs_inv hinv).of_view rfl, hroom, hkind⟩
    exact perform_noOverflow hhost hnext

end

end Sys2Proof.Safety
end

section
/-! SUPPORT. The bounds of SEND and LOADP and the write of LOADP (spec 43_portchannel.md R182, R185; the tests that
refuse a word, 60_exceptions.md R243). -/

namespace Sys2Proof.Machine

open Sys2Proof.Safety

section
variable {p : Byte} {a b : Half} {s : State}

/-! ### Which words are refused -/

theorem refuses_send (c : Params) (busy : Bool) (p : Byte) (a b : Half) :
    refuses c busy (commandWord opSend 0 p a b) = (busy || decide (c.maxPayload < a.toNat % 256)) := by
  rw [refuses_commandWord, lengthOperand, lowByte_toNat]
  simp [isReservedOp, opSend, opLoadp]

theorem refuses_loadp (c : Params) (busy : Bool) (p : Byte) (a b : Half) :
    refuses c busy (commandWord opLoadp 0 p a b) = (busy || decide (c.maxPayload ≤ a.toNat % 256)) := by
  rw [refuses_commandWord, indexOperand, lowByte_toNat]
  simp [isReservedOp, opSend, opLoadp]

theorem perform_commandWord_refused {op r : Nibble} {first : State → State}
    (h : refuses s.cfg s.busy (commandWord op r p a b) = true) :
    perform (commandWord op r p a b) first s = .next (onlyRefused (op ++ r ++ p) s) := by
  rw [perform_refused h, refuse_commandWord]

/-! ### SEND -/

/-- Settles O23: the length test alone refuses the word, whatever the block is doing. -/
theorem sendBeyondBoundIsRefused : Obligations.SendBeyondBoundIsRefused := by
  intro p a b s hlen
  have hrefused : refuses s.cfg s.busy (commandWord opSend 0 p a b) = true := by
    rw [refuses_send, decide_eq_true hlen, Bool.or_true]
  exact perform_commandWord_refused hrefused

/-! ### LOADP -/

theorem byteOperand_eq_ofNat (b : Half) : byteOperand b = BitVec.ofNat 8 b.toNat := rfl

theorem execLoadp_refused (hindex : s.cfg.maxPayload ≤ a.toNat % 256) :
    execLoadp p a b s = .next (onlyRefused (opLoadp ++ 0x0#4 ++ p) s) := by
  have hrefused : refuses s.cfg s.busy (commandWord opLoadp 0 p a b) = true := by
    rw [refuses_loadp, decide_eq_true hindex, Bool.or_true]
  exact perform_commandWord_refused hrefused

/-- An accepted LOADP writes its byte and is over: what it leaves besides is its latch. -/
theorem execLoadp_accepted (hidle : s.busy = false) (hindex : a.toNat % 256 < s.cfg.maxPayload) :
    execLoadp p a b s = .next { storeTxp (a.toNat % 256) (BitVec.ofNat 8 b.toNat) s with
      curOp := opLoadp, opPort := p, opA := a, opB := b } := by
  have haccepted : refuses s.cfg s.busy (commandWord opLoadp 0 p a b) = false := by
    rw [refuses_loadp, hidle, decide_eq_false (Nat.not_le.mpr hindex), Bool.or_false]
  rw [execLoadp, perform_accepted haccepted, runOperation_of_rest (atRest_endOp _), accept_commandWord]
  simp only [indexOperand, lowByte_toNat, byteOperand_eq_ofNat, endOp, storeTxp, hidle]

/-- Settles O21: the index test decides; the accepted word's next state differs from the state before, as far as the
three arrays go, by one write to TXP. -/
theorem loadpCompletes : Obligations.LoadpCompletes := by
  intro p a b s hidle
  refine ⟨execLoadp_accepted hidle, fun t hindex hexec => ?_, execLoadp_refused⟩
  rw [exec, execLoadp_accepted hidle hindex] at hexec
  cases hexec
  exact ⟨byteAt_storeTxp_same _ _ s, fun i hi => byteAt_storeTxp_other _ i _ s hi, fun _ => rfl, fun _ => rfl⟩

end

end Sys2Proof.Machine
end

section
/-! SUPPORT. SET_TIMEOUT (spec 44_controller.md R190): its operand as a number, and the whole next state. -/

namespace Sys2Proof.Machine

/-- `{a, b}` as a number (R102). -/
theorem halves_toNat (a b : Half) : (a ++ b).toNat = a.toNat * 65536 + b.toNat := by
  rw [BitVec.toNat_append, ← Nat.shiftLeft_add_eq_or_of_lt b.isLt, Nat.shiftLeft_eq]

/-- Settles O20: the first action of SET_TIMEOUT ends it. -/
theorem setTimeoutCompletes : Obligations.SetTimeoutCompletes := by
  intro p a b s hidle
  have haccepted : refuses s.cfg s.busy (commandWord opSetTimeout 0 p a b) = false :=
    (refuses_plain _ _ _ _ _ _ rfl (by decide) (by decide)).trans hidle
  rw [exec, execSetTimeout, perform_accepted haccepted, runOperation_of_rest (atRest_endOp _), accept_commandWord,
    ← halves_toNat, endOp, ← hidle]
  rfl

end Sys2Proof.Machine
end

section
/-! SUPPORT. The end of a request (spec 44_controller.md R197 to R203): what each request command makes of a resolution,
and which outcomes of an attempt resolve a request as a failure. -/

namespace Sys2Proof.Machine

open Sys2Proof.Safety

section
variable {s : State} {r : Resolution}

/-! ### The command in progress -/

theorem commandResult_query (r : Resolution) (h : s.curOp = opQuery) : commandResult r s = queryResult r s := if_pos h

theorem commandResult_control (r : Resolution) (h : s.curOp = opControl) :
    commandResult r s = controlResult r s := by
  simp [commandResult, h, opControl, opQuery]

theorem commandResult_scan (r : Resolution) (h : s.curOp = opScan) : commandResult r s = scanResult r s := by
  simp [commandResult, h, opScan, opControl, opQuery]

theorem commandResult_getRevision (r : Resolution) (h : s.curOp = opGetRevision) :
    commandResult r s = revisionResult r s := by
  simp [commandResult, h, opGetRevision, opScan, opControl, opQuery]

/-! ### Failures -/

/-- A resolution without a value. -/
def Fails (r : Resolution) : Prop := ∀ v, r ≠ .success v

theorem commandResult_query_failed (h : s.curOp = opQuery) (hr : Fails r) :
    commandResult r s = { s with qValue := 0xFFFF, busy := false } := by
  rw [commandResult_query r h]
  cases r with
  | success v => exact absurd rfl (hr v)
  | _ => rfl

theorem commandResult_control_failed (h : s.curOp = opControl) (hr : Fails r) :
    commandResult r s = { s with cOk := false, busy := false } := by
  rw [commandResult_control r h]
  cases r with
  | success v => exact absurd rfl (hr v)
  | _ => rfl

theorem commandResult_scan_failed (h : s.curOp = opScan) (hr : Fails r) :
    commandResult r s = { s with sDevtype := 0, busy := false } := by
  rw [commandResult_scan r h]
  cases r with
  | success v => exact absurd rfl (hr v)
  | _ => rfl

theorem commandResult_getRevision_failed (h : s.curOp = opGetRevision) (hr : Fails r) :
    commandResult r s =
      { s with revA := 0xFFFF, revB := 0xFFFF, revC := 0xFFFF, revOk := false, busy := false } := by
  rw [commandResult_getRevision r h]
  cases r with
  | success v => exact absurd rfl (hr v)
  | _ => rfl

/-- `s` with its request no longer in the wait loop, the events `e` emitted. -/
def unsent (e : List DiagEvent) (s : State) : State := { s with ctl := .idle, diagLog := s.diagLog ++ e }

theorem concludeRequest_unsent (r : Resolution) (s : State) :
    concludeRequest r s = commandResult r (unsent [] s) := by
  rw [unsent, List.append_nil, concludeRequest_eq]

/-- The length goes to the event (R242). -/
theorem resolveOk_badLength (hlen : s.rxLen ≠ 2) :
    resolveOk s = commandResult .badLength (unsent [.fail .badLength (s.rxLen.setWidth 16)] s) := by
  rw [resolveOk, if_neg hlen]
  rfl

/-- Every outcome but NO_DATA and an OK payload of 2 bytes resolves the request as a failure. -/
theorem requestOutcome_failed {k : Kind} (hdata : k ≠ .noData) (hlen : k = .ok → s.rxLen ≠ 2) :
    ∃ r e, Fails r ∧ requestOutcome k s = commandResult r (unsent e s) := by
  cases k with
  | noData => exact absurd rfl hdata
  | ok => exact ⟨.badLength, _, fun _ => nofun, resolveOk_badLength (hlen rfl)⟩
  | timeout => exact ⟨.timeout, [], fun _ => nofun, concludeRequest_unsent _ s⟩
  | truncated => exact ⟨.truncated, [], fun _ => nofun, concludeRequest_unsent _ s⟩
  | overflow => exact ⟨.overflow, [], fun _ => nofun, concludeRequest_unsent _ s⟩
  | checksumMismatch => exact ⟨.checksumError, [], fun _ => nofun, concludeRequest_unsent _ s⟩
  | unresolvedDeviceType | badLength | refused => exact ⟨.badLength, [], fun _ => nofun, concludeRequest_unsent _ s⟩

/-- Settles O19: the frame is latched, and its length resolves the request. -/
theorem replyOfWrongLengthFails : Obligations.ReplyOfWrongLengthFails := by
  intro p d s hparams hfits hlen hop
  have hrxLen : (verified p d s).rxLen.toNat = d.length := ofNat_length_toNat hparams hfits
  have hne : (verified p d s).rxLen ≠ 2 := fun heq => hlen (by rw [← hrxLen, heq]; rfl)
  have hdata : (verified p d s).rxLen.setWidth 16 = BitVec.ofNat 16 d.length := by
    rw [← hrxLen, BitVec.ofNat_toNat]
  have hexec : exec (.frame p d (checksum p d)) s = .next (resolveOk (verified p d s)) :=
    (finishFrame_verified hfits).trans (congrArg _ (deliver_request .ok (congrArg isRequestOp hop)))
  rw [resolveOk_badLength hne, hdata,
    commandResult_query_failed (s := unsent _ (verified p d s)) (r := .badLength) hop fun _ => nofun] at hexec
  exact ⟨_, hexec, rfl, rfl, rfl, hrxLen, rfl, rfl, List.append_assoc ..⟩

end

end Sys2Proof.Machine
end

section
/-! SUPPORT. A request on a line that stays quiet for a number of steps (spec 44_controller.md R194 to R196): its frame
goes out, S0 is sampled, and the wait loop begins. The rest of the script is open. -/

namespace Sys2Proof.Machine

open Sys2Proof.Safety

/-! ### Quiet steps -/

/-- The environment does nothing during the next `n` steps. -/
def QuietFor (n : Nat) (s : State) : Prop := ∀ m ∈ s.script.take n, m = EnvMove.quiet

/-- `s` when `n` quiet steps have been entered: only the script has moved on. That the clock is cut to its width is what
R257 does to a value outside it. -/
def waited (n : Nat) (s : State) : State :=
  { s with script := s.script.drop n, now := clockTrunc s.cfg.clockW s.now }

section
variable {m n k : Nat} {s t : State}

theorem quietFor_of_quiet (h : QuietScript s) : QuietFor n s := fun m hm => h m (List.mem_of_mem_take hm)

theorem QuietFor.mono (h : QuietFor n s) (hle : m ≤ n) (hscript : t.script = s.script) : QuietFor m t := by
  intro e he
  rw [hscript] at he
  exact h e (List.take_subset_take_left _ hle he)

theorem QuietFor.later (h : QuietFor n s) (hle : m + k ≤ n) (hscript : t.script = s.script.drop m) :
    QuietFor k t := by
  intro e he
  rw [hscript, List.take_drop] at he
  exact h e (List.take_subset_take_left _ hle (List.mem_of_mem_drop he))

theorem QuietFor.nextMove (h : QuietFor n s) (hpos : 0 < n) : nextMove s = EnvMove.quiet := by
  unfold Machine.nextMove
  split
  · rfl
  · rename_i e rest hscript
    refine h e ?_
    rw [hscript, List.take_cons hpos]
    exact List.mem_cons_self

theorem clockTrunc_toNat (w : Nat) (v : Clock) : (clockTrunc w v).toNat = v.toNat % 2 ^ w := by
  rw [clockTrunc, BitVec.toNat_ofNat, Nat.mod_eq_of_lt ((Nat.mod_le _ _).trans_lt v.isLt)]

theorem clockTrunc_clockTrunc (w : Nat) (v : Clock) : clockTrunc w (clockTrunc w v) = clockTrunc w v := by
  rw [← BitVec.toNat_inj, clockTrunc_toNat, clockTrunc_toNat, Nat.mod_mod]

theorem waited_waited (m n : Nat) (s : State) : waited n (waited m s) = waited (m + n) s := by
  simp only [waited, clockTrunc_clockTrunc, List.drop_drop]

theorem environmentActs_quiet (h : nextMove s = EnvMove.quiet) : environmentActs s = waited 1 s := by
  rw [environmentActs, h, waited, List.drop_one, clockTrunc]
  simp [EnvMove.quiet]

theorem tick_quiet (h : nextMove s = EnvMove.quiet) : tick s = act (waited 1 s) := by
  rw [tick_of_not_rst (by rw [h]; rfl), moved_of_not_present (by rw [h]; rfl), environmentActs_quiet h]

/-- An operation that is not between two polls is not at rest. -/
theorem atRest_of_working (hbusy : s.busy = true) (hwork : s.cp ≠ .dOff ∨ s.ctl ≠ .sent) : atRest s = false := by
  obtain h | h := hwork <;> simp [atRest, waitsOnSilence, hbusy, h]

/-- A quiet step of such an operation is the block's action. -/
theorem QuietFor.reaches (h : QuietFor n s) (hpos : 0 < n) (hbusy : s.busy = true)
    (hwork : s.cp ≠ .dOff ∨ s.ctl ≠ .sent) (hact : act (waited 1 s) = .next t) : Reaches 1 s t := fun j => by
  rw [Nat.add_comm, runSteps_succ (atRest_of_working hbusy hwork), tick_quiet (h.nextMove hpos), hact, andThen_next]

/-! ### The request goes out -/

/-- `s` when its encoder has written `us`, the last of its frame, and emitted `e`. -/
def written (us : List LineUnit) (e : DiagEvent) (s : State) : State :=
  { s with txq := s.txq ++ us, diagLog := s.diagLog ++ [e], enc := none }

/-- One unit a step, and the event with the last one; the operation goes on. -/
theorem QuietFor.reaches_written {r : EncRun} (h : QuietFor (unitsLeft r).length s) (hbusy : s.busy = true)
    (henc : s.enc = some r) (hop : isRequestOp s.curOp = true) (hctl : s.ctl = .idle) :
    Reaches (unitsLeft r).length s
      (written (unitsLeft r) (frameEvent r) (waited (unitsLeft r).length s)) := by
  have hwork {u : State} (hu : u.ctl = .idle) : u.cp ≠ .dOff ∨ u.ctl ≠ .sent := .inr (by rw [hu]; nofun)
  induction hus : unitsLeft r generalizing r s with
  | nil => exact absurd hus (unitsLeft_ne_nil r)
  | cons u us ih =>
    rw [hus, List.length_cons] at h
    have hfirst : Reaches 1 s (encodeTick r (waited 1 s)) :=
      h.reaches (Nat.succ_pos _) hbusy (hwork hctl) (act_sending (s := waited 1 s) henc)
    by_cases hlast : us = []
    · subst hlast
      obtain ⟨hstage, rfl⟩ := stage_of_unitsLeft_singleton hus
      have hevent : frameEvent r = .frameTx r.port r.payload r.acc := by simp [frameEvent, finalSum, hstage]
      rw [encodeTick_low _ hstage, frameSent_request (by exact hop), ← hevent] at hfirst
      exact hfirst
    · obtain ⟨r', hus', hencode⟩ := encodeTick_of_unitsLeft (waited 1 s) hus hlast
      have hevent : frameEvent r' = frameEvent r := frameEvent_of_encodeTick (by rw [hencode]; rfl)
      have hlater := ih (s := writeUnit u { waited 1 s with enc := some r' }) (r := r')
        (hus' ▸ h.later (Nat.add_comm .. ).le rfl) hbusy rfl hop hctl hus'
      rw [hencode] at hfirst
      have hstate : written us (frameEvent r) (waited us.length (writeUnit u { waited 1 s with enc := some r' })) =
          written (u :: us) (frameEvent r) (waited (1 + us.length) s) := by
        rw [← waited_waited]
        simp [written, waited]
      rw [hevent, hstate] at hlater
      rw [List.length_cons, Nat.add_comm]
      exact hfirst.trans hlater

/-- A request command has been accepted, and its request is about to be sent or has been. -/
structure Asking (s : State) : Prop where
  busy : s.busy = true
  request : isRequestOp s.curOp = true
  off : s.cp = .dOff
  idle : s.ctl = .idle
  params : s.cfg.Valid

theorem Asking.working (h : Asking s) : s.cp ≠ .dOff ∨ s.ctl ≠ .sent := .inr (by rw [h.idle]; nofun)

/-- S0 is sampled, and the wait loop begins (R195, R196). -/
theorem Asking.reaches_sent (h : Asking s) (henc : s.enc = none) (hquiet : QuietFor 1 s) :
    Reaches 1 s (enterSent (waited 1 s)) := by
  refine hquiet.reaches Nat.one_pos h.busy h.working ?_
  rw [act_off (s := waited 1 s) henc h.off, betweenAttempts, if_pos (by exact h.request), controllerTick]
  rw [show (waited 1 s).ctl = .idle from h.idle]

/-- `s` when the frame `(p, d)` is on the line and the wait loop has begun. -/
def awaiting (p : Byte) (d : List Byte) (s : State) : State :=
  enterSent (written (encodeFrame p d) (.frameTx p d (checksum p d)) (waited (d.length + 4) s))

/-- The frame goes out and S0 is sampled, on a line that stays quiet meanwhile. -/
theorem Asking.reaches_awaiting (h : Asking s) (p : Byte) (d : List Byte) (hquiet : QuietFor (d.length + 4) s) :
    Reaches (d.length + 4) (startFrame p d s) (awaiting p d s) := by
  have hlen : (encodeFrame p d).length = d.length + 3 := encodeFrame_length p d
  have hsending : QuietFor (encodeFrame p d).length (startFrame p d s) := hquiet.mono (by omega) rfl
  have hwritten := hsending.reaches_written (r := { port := p, payload := d, stage := .portUnit, acc := 0 })
    h.busy rfl h.request h.idle
  set u := written (encodeFrame p d) (.frameTx p d (checksum p d)) (waited (encodeFrame p d).length s) with hu
  have hasking : Asking u := ⟨h.busy, h.request, h.off, h.idle, h.params⟩
  have hlast : QuietFor 1 u := hquiet.later (m := d.length + 3) le_rfl (congrArg (s.script.drop ·) hlen)
  have hsampled := hasking.reaches_sent rfl hlast
  have hstate : enterSent (waited 1 u) = awaiting p d s :=
    congrArg (fun v => enterSent (written (encodeFrame p d) (.frameTx p d (checksum p d)) v))
      ((waited_waited ..).trans (congrArg (waited · s) (congrArg (· + 1) hlen)))
  rw [hstate] at hsampled
  exact congrArg (· + 1) hlen ▸ hwritten.trans hsampled

end

end Sys2Proof.Machine
end

section
/-! SUPPORT. A whole frame taken from a line that stays quiet for exactly as many steps as that takes (spec 42_decode.md
R143 to R158). The rest of the script is open, so that one frame can be followed by another request. -/

namespace Sys2Proof.Machine

open Sys2Proof.Safety

/-! ### One unit -/

/-- The attempt is at step 2a with `n` bytes collected and `q` waiting, and no time has passed since S2. -/
structure Looping (n : Nat) (q : List LineUnit) (s : State) : Prop where
  busy : s.busy = true
  noFrame : s.enc = none
  params : s.cfg.Valid
  loop : s.cp = .dLoop
  collected : s.cursor.toNat = n
  waiting : s.rxq = q
  fresh : s.tStart = clockTrunc s.cfg.clockW s.now

/-- `s` when S3 has been passed on a quiet line. -/
def reading (s : State) : State := { waited 1 s with cp := .dRead }

/-- `s` when S4 has then taken a unit, and `q` is left. -/
def fetched (q : List LineUnit) (s : State) : State := { waited 2 s with cp := .dRead, rxq := q }

/-- `s` when `buf[n] <- b` has been done for the unit taken, `q` is left, and the gap test made (R148, R150, R152). -/
def appended (n : Nat) (b : Byte) (q : List LineUnit) (s : State) : State :=
  { waited 3 s with
    buf := s.buf.write n b
    cursor := BitVec.ofNat 8 (n + 1)
    cp := if q = [] then .dFinish else .dLoop
    rxq := q }

section
variable {n : Nat} {x : LineUnit} {q : List LineUnit} {s : State}

theorem elapsed_self (w : Nat) (t : Clock) : (elapsed w t t).toNat = 0 := by simp [elapsed, clockTrunc]

theorem ofNat_succ_toNat (h : n < 255) : (BitVec.ofNat 8 (n + 1)).toNat = n + 1 := by
  rw [BitVec.toNat_ofNat, Nat.mod_eq_of_lt (by omega)]

theorem Looping.not_late (h : Looping n q s) : ¬ deadlinePassed s.cfg s.tStart (waited 1 s).now s.timeout = true := by
  rw [deadlinePassed_iff, h.fresh, show (waited 1 s).now = clockTrunc s.cfg.clockW s.now from rfl, elapsed_self]
  exact Nat.not_lt_zero _

/-- The gap test after a byte that does not complete MAX_LEN looks for a further unit (R152). -/
theorem testGap_stored (b : Byte) (hshort : n + 1 < s.cfg.maxLen ∨ q = []) (hn : n < 255) :
    testGap (waited 1 (stored [] n b (fetched q s))) = appended n b q s := by
  have hcursor : (waited 1 (stored [] n b (fetched q s))).cursor.toNat = n + 1 := ofNat_succ_toNat hn
  have happended : { waited 1 (stored [] n b (fetched q s)) with cp := if q = [] then .dFinish else .dLoop } =
      appended n b q s := by
    rw [appended, ← waited_waited 2 1]
    simp [waited, stored, fetched, clockTrunc_clockTrunc]
  rw [← happended]
  by_cases hq : q = []
  · rw [testGap_complete (s := waited 1 (stored [] n b (fetched q s))) (.inl hq), if_pos hq]
  · have hroom := hcursor.trans_lt (hshort.resolve_right hq)
    rw [testGap_more (s := waited 1 (stored [] n b (fetched q s))) hq hroom, if_neg hq]

/-- Steps 2a to 2f with a unit that is stored at `n`. -/
theorem Looping.reaches_appended (h : Looping n (x :: q) s) (hquiet : QuietFor 3 s)
    (hshort : n + 1 < s.cfg.maxLen ∨ q = []) (hn : n < 255)
    (hstore : storeUnit x (fetched q s) = .next (stored [] n (stripUnit x) (fetched q s))) :
    Reaches 3 s (appended n (stripUnit x) q s) := by
  have htime : act (waited 1 s) = .next (reading s) := by
    rw [act_loop (s := waited 1 s) h.noFrame h.loop, testDeadline_inTime (s := waited 1 s) h.not_late]
    rfl
  have hread : act (waited 1 (reading s)) = .next (stored [] n (stripUnit x) (fetched q s)) := by
    have hfetched : { waited 1 (reading s) with rxq := q } = fetched q s := by
      rw [fetched, ← waited_waited 1 1]
      rfl
    rw [act_read (s := waited 1 (reading s)) h.noFrame rfl, readUnit_cons (s := waited 1 (reading s)) h.waiting,
      hfetched, hstore]
  have hgap : act (waited 1 (stored [] n (stripUnit x) (fetched q s))) = .next (appended n (stripUnit x) q s) := by
    rw [act_eof (s := waited 1 (stored [] n (stripUnit x) (fetched q s))) h.noFrame rfl, testGap_stored _ hshort hn]
  have hfirst := hquiet.reaches (by decide) h.busy (.inl (by rw [h.loop]; nofun)) htime
  have hsecond := (hquiet.later (m := 1) (k := 2) (t := reading s) le_rfl rfl).reaches (by decide) h.busy
    (.inl nofun) hread
  have hthird := (hquiet.later (m := 2) (k := 1) (t := stored [] n (stripUnit x) (fetched q s)) le_rfl rfl).reaches
    (by decide) h.busy (.inl nofun) hgap
  exact (hfirst.trans hsecond).trans hthird

/-! ### The bytes of a frame -/

/-- `s` when `bytes` have been stored from `n` on, the line is empty, and `k` quiet steps have gone by. -/
def gathered (k n : Nat) (bytes : List Byte) (s : State) : State :=
  { waited k s with
    buf := s.buf.writeList n bytes
    cursor := BitVec.ofNat 8 (n + bytes.length)
    cp := .dFinish
    rxq := [] }

theorem gathered_appended (k : Nat) (b : Byte) (bytes : List Byte) (q : List LineUnit) (s : State) :
    gathered k (n + 1) bytes (appended n b q s) = gathered (3 + k) n (b :: bytes) s := by
  simp only [gathered, appended, waited, clockTrunc_clockTrunc, List.drop_drop, Memory.writeList, List.length_cons,
    Nat.add_assoc, Nat.add_comm 1]

theorem Looping.next (h : Looping n (x :: q) s) (b : Byte) (hn : n < 255) (hq : q ≠ []) :
    Looping (n + 1) q (appended n b q s) where
  busy := h.busy
  noFrame := h.noFrame
  params := h.params
  loop := if_neg hq
  collected := ofNat_succ_toNat hn
  waiting := rfl
  fresh := h.fresh.trans (clockTrunc_clockTrunc ..).symm

/-- A run of unmarked units that fits, to the end of the line. -/
theorem Looping.reaches_gathered {bytes : List Byte} (h : Looping n (bytes.map plainUnit) s) (hsome : bytes ≠ [])
    (hquiet : QuietFor (3 * bytes.length) s) (hlen : n + bytes.length ≤ s.cfg.maxLen)
    (hcap : n + bytes.length ≤ s.cfg.bufCap) :
    Reaches (3 * bytes.length) s (gathered (3 * bytes.length) n bytes s) := by
  induction bytes generalizing n s with
  | nil => exact absurd rfl hsome
  | cons b bytes ih =>
    rw [List.length_cons] at hquiet hlen hcap
    obtain ⟨-, -, -, hbuf, -⟩ := h.params
    have hroom : n < s.cfg.bufCap := by omega
    have hstore : storeUnit (plainUnit b) (fetched (bytes.map plainUnit) s) =
        .next (stored [] n b (fetched (bytes.map plainUnit) s)) := by
      have hplain := storeUnit_plain (s := fetched (bytes.map plainUnit) s) (isMarked_plainUnit b)
        (h.collected.trans_lt hroom)
      rwa [stripUnit_plainUnit, show (fetched (bytes.map plainUnit) s).cursor.toNat = n from h.collected] at hplain
    have hshort : n + 1 < s.cfg.maxLen ∨ bytes.map plainUnit = [] := by
      by_cases hlast : bytes = []
      · exact .inr (by rw [hlast]; rfl)
      · have := List.length_pos_of_ne_nil hlast
        exact .inl (by omega)
    have hfirst := h.reaches_appended (hquiet.mono (by omega) rfl) hshort (by omega) (by rwa [stripUnit_plainUnit])
    rw [stripUnit_plainUnit] at hfirst
    rw [List.length_cons, Nat.mul_succ, Nat.add_comm]
    by_cases hlast : bytes = []
    · subst hlast
      exact hfirst
    · have hmore : bytes.map plainUnit ≠ [] := by simpa using hlast
      have hrest := ih (h.next b (by omega) hmore) hlast (hquiet.later (m := 3) (by omega) rfl)
        (by rw [Nat.add_assoc, Nat.add_comm 1]; exact hlen) (by rw [Nat.add_assoc, Nat.add_comm 1]; exact hcap)
      rw [gathered_appended] at hrest
      exact hfirst.trans hrest

/-! ### The attempt -/

/-- An attempt begins: S1 is next. -/
structure Beginning (s : State) : Prop where
  busy : s.busy = true
  noFrame : s.enc = none
  params : s.cfg.Valid
  begun : s.cp = .dBegin
  noS1 : s.s1Seen = false
  empty : s.cursor = 0

/-- `s` at step 2a, S1 having found a unit and S2 sampled the clock. -/
def looping (s : State) : State :=
  { waited 2 s with tStart := clockTrunc s.cfg.clockW s.now, cp := .dLoop, s1Seen := false }

/-- `s` when S1 has found a unit. -/
def alerted (s : State) : State := { waited 1 s with s1Seen := true }

theorem Beginning.running (h : Beginning s) : s.cp ≠ .dOff := by rw [h.begun]; nofun

theorem Beginning.reaches_looping (h : Beginning s) (hrxq : s.rxq ≠ []) (hquiet : QuietFor 2 s) :
    Reaches 2 s (looping s) := by
  have hs1 : act (waited 1 s) = .next (alerted s) := by
    rw [act_begin_s1 (s := waited 1 s) h.noFrame h.begun h.noS1, testAvailable_waiting (s := waited 1 s) hrxq]
    rfl
  have hs2 : act (waited 1 (alerted s)) = .next (looping s) := by
    rw [act_begin_s2 (s := waited 1 (alerted s)) h.noFrame h.begun rfl]
    simp [recordStart, looping, alerted, waited, clockTrunc_clockTrunc]
  have hfirst := hquiet.reaches (by decide) h.busy (.inl h.running) hs1
  have hsecond := (hquiet.later (m := 1) (k := 1) (t := alerted s) le_rfl rfl).reaches (by decide) h.busy
    (.inl h.running) hs2
  exact hfirst.trans hsecond

theorem Beginning.atLoop (h : Beginning s) (hrxq : s.rxq = q) : Looping 0 q (looping s) where
  busy := h.busy
  noFrame := h.noFrame
  params := h.params
  loop := rfl
  collected := congrArg BitVec.toNat h.empty
  waiting := hrxq
  fresh := (clockTrunc_clockTrunc ..).symm

/-- Two steps to find the line busy, three a unit: a START and unmarked units that fit are gathered. -/
theorem Beginning.reaches_gathered {p : Byte} {tail : List Byte} (h : Beginning s)
    (hrxq : s.rxq = markUnit p :: tail.map plainUnit) (hsome : tail ≠ []) (hlen : 1 + tail.length ≤ s.cfg.maxLen)
    (hcap : 1 + tail.length ≤ s.cfg.bufCap) (hquiet : QuietFor (3 * tail.length + 5) s) :
    Reaches (3 * tail.length + 5) s (gathered (3 + 3 * tail.length) 0 (p :: tail) (looping s)) := by
  have hmore : tail.map plainUnit ≠ [] := by simpa using hsome
  have hbegun := h.reaches_looping (by rw [hrxq]; nofun) (hquiet.mono (by omega) rfl)
  have hloop := h.atLoop hrxq
  have hempty : collectedBytes (fetched (tail.map plainUnit) (looping s)) = [] :=
    collectedBytes_eq_nil_iff.mpr h.empty
  have hroom : 0 < s.cfg.bufCap := by omega
  have hstore := storeUnit_marked (s := fetched (tail.map plainUnit) (looping s)) (isMarked_markUnit p) hroom
  rw [hempty] at hstore
  have hport := hloop.reaches_appended (hquiet.later (m := 2) (by omega) rfl) (.inl (by simp [Params.maxLen]))
    (by decide) hstore
  rw [stripUnit_markUnit] at hport
  have hscript : (appended 0 p (tail.map plainUnit) (looping s)).script = s.script.drop 5 := List.drop_drop ..
  have hbytes := (hloop.next p (by decide) hmore).reaches_gathered hsome (hquiet.later (by omega) hscript) hlen hcap
  rw [gathered_appended] at hbytes
  have hall := (hbegun.trans hport).trans hbytes
  rwa [Nat.add_comm] at hall

/-- The bytes that have been gathered are those that steps 3 to 6 read. -/
theorem collectedBytes_gathered (k : Nat) {bytes : List Byte} (s : State) (hlen : bytes.length ≤ 255) :
    collectedBytes (gathered k 0 bytes s) = bytes := by
  have hcursor : (gathered k 0 bytes s).cursor.toNat = bytes.length := by
    rw [gathered, Nat.zero_add, BitVec.toNat_ofNat, Nat.mod_eq_of_lt (by omega)]
  refine List.ext_getElem (by rw [collectedBytes_length, hcursor]) fun i _ hi => ?_
  have hread := Memory.read_writeList_same s.buf 0 bytes i hi
  rw [Nat.zero_add] at hread
  have hbyte : byteAt (gathered k 0 bytes s) .buf i = bytes[i] := byteAt_of_read hread
  simpa [collectedBytes, bytesAt] using hbyte

/-- `s` when the frame `(p, d)` has been taken from a quiet line and has verified. -/
def received (p : Byte) (d : List Byte) (s : State) : State :=
  verified p d { waited (3 * d.length + 12) s with
    buf := s.buf.writeList 0 (p :: (d ++ be16Pack (checksum p d)))
    tStart := clockTrunc s.cfg.clockW s.now
    s1Seen := false
    rxq := [] }

theorem verified_gathered (p : Byte) (d : List Byte) (s : State) :
    verified p d (waited 1 (gathered (3 * d.length + 9) 0 (p :: (d ++ be16Pack (checksum p d))) (looping s))) =
      received p d s := by
  have hdrop : 2 + (3 * d.length + 9) + 1 = 3 * d.length + 12 := by omega
  simp only [verified, received, gathered, looping, waited, clockTrunc_clockTrunc, List.drop_drop, hdrop]

/-- The frame that waits is taken, verified and handed over. -/
theorem Beginning.reaches_received {p : Byte} {d : List Byte} (h : Beginning s) (hrxq : s.rxq = encodeFrame p d)
    (hlen : d.length ≤ s.cfg.maxPayload) (hcap : d.length + 3 ≤ s.cfg.bufCap)
    (hquiet : QuietFor (3 * d.length + 12) s) :
    Reaches (3 * d.length + 12) s (deliver .ok (received p d s)) := by
  have htail : (d ++ be16Pack (checksum p d)).length = d.length + 2 := by simp [be16Pack]
  have hsome : d ++ be16Pack (checksum p d) ≠ [] := List.ne_nil_of_length_pos (by omega)
  have hcount : 3 * (d ++ be16Pack (checksum p d)).length + 5 + 1 = 3 * d.length + 12 := by omega
  have hsteps : 3 + 3 * (d ++ be16Pack (checksum p d)).length = 3 * d.length + 9 := by omega
  obtain ⟨-, -, -, hbuf, -⟩ := h.params
  have hgathered := h.reaches_gathered (hrxq.trans (encodeFrame_eq p d)) hsome
    (by rw [htail]; exact (Nat.add_comm ..).trans_le (Nat.add_le_add_right hlen 3))
    (by omega) (hquiet.mono (by omega) rfl)
  set g := gathered (3 + 3 * (d ++ be16Pack (checksum p d)).length) 0 (p :: (d ++ be16Pack (checksum p d)))
    (looping s) with hg
  have hbytes : collectedBytes (waited 1 g) = p :: (d ++ be16Pack (checksum p d)) :=
    collectedBytes_gathered _ _ (by rw [List.length_cons]; omega)
  have hact : act (waited 1 g) = .next (deliver .ok (received p d s)) := by
    rw [act_finish (s := waited 1 g) h.noFrame rfl, finishAttempt_frame hbytes hcap,
      finishFrame_verified (s := waited 1 g) hlen, hg, hsteps, verified_gathered]
  have hscript : g.script = s.script.drop (3 * d.length + 11) := by
    rw [hg, hsteps]
    exact (List.drop_drop ..).trans (congrArg s.script.drop (by omega))
  rw [← hcount]
  exact hgathered.trans ((hquiet.later (m := 3 * d.length + 11) le_rfl hscript).reaches Nat.one_pos h.busy
    (.inl nofun) hact)

end

end Sys2Proof.Machine
end

section
/-! SUPPORT. A request that is answered by a 2-byte response (spec 44_controller.md R193 to R198), and the four request
commands then (R200 to R203). -/

namespace Sys2Proof.Machine

open Sys2Proof.Safety

/-! ### The answer -/

/-- From an attempt's beginning on, nothing happens during `n + 1` steps but that `us` are what S1 finds: they wait
already, or they arrive just before. -/
def Finds (us : List LineUnit) (n : Nat) (s : State) : Prop :=
  (s.rxq = us ∧ QuietFor (n + 1) s) ∨
    (s.rxq = [] ∧ ∃ later, s.script = { EnvMove.quiet with arrivals := us } :: later ∧
      ∀ m ∈ later.take n, m = EnvMove.quiet)

section
variable {p q : Byte} {d e : List Byte} {v : Half} {us : List LineUnit} {k n : Nat} {s t u : State}

/-- A run is the run from any state whose next step is the same. -/
theorem Reaches.of_tick (h : Reaches (k + 1) t u) (htick : tick s = tick t) (hs : atRest s = false)
    (ht : atRest t = false) : Reaches (k + 1) s u := fun j => by
  rw [← h j, Nat.add_right_comm, runSteps_succ hs, runSteps_succ ht, htick]

/-- A step before which units only arrive is a quiet step with the units waiting. -/
theorem tick_arrivals {later : List EnvMove} (hrxq : s.rxq = [])
    (hscript : s.script = { EnvMove.quiet with arrivals := us } :: later) :
    tick s = tick { s with rxq := us, script := EnvMove.quiet :: later } := by
  have hmove : nextMove s = { EnvMove.quiet with arrivals := us } := by rw [nextMove, hscript]
  rw [tick_of_not_rst (by rw [hmove]; rfl), moved_of_not_present (by rw [hmove]; rfl), tick_quiet rfl]
  simp [environmentActs, hmove, waited, clockTrunc, hscript, hrxq, EnvMove.quiet]

/-- The frame that S1 finds is taken, verified and handed over. -/
theorem Beginning.reaches_found (h : Beginning s) (hlen : d.length ≤ s.cfg.maxPayload)
    (hcap : d.length + 3 ≤ s.cfg.bufCap) (hfinds : Finds (encodeFrame q d) (3 * d.length + 11) s) :
    Reaches (3 * d.length + 12) s (deliver .ok (received q d s)) := by
  obtain ⟨hrxq, hquiet⟩ | ⟨hrxq, later, hscript, hlater⟩ := hfinds
  · exact h.reaches_received hrxq hlen hcap hquiet
  · set t : State := { s with rxq := encodeFrame q d, script := EnvMove.quiet :: later } with ht
    have hbegin : Beginning t := ⟨h.busy, h.noFrame, h.params, h.begun, h.noS1, h.empty⟩
    have hquiet : QuietFor (3 * d.length + 12) t := by
      intro m hm
      rw [ht, List.take_succ_cons, List.mem_cons] at hm
      exact hm.elim id (hlater m)
    have hsame : received q d t = received q d s := by
      simp [received, verified, waited, ht, hscript]
    have hreaches := hbegin.reaches_received rfl hlen hcap hquiet
    rw [hsame] at hreaches
    exact hreaches.of_tick (tick_arrivals hrxq hscript) (atRest_of_working h.busy (.inl h.running))
      (atRest_of_working (s := t) h.busy (.inl h.running))

theorem Asking.beginning (h : Asking s) (p : Byte) (d : List Byte) : Beginning (awaiting p d s) :=
  ⟨h.busy, rfl, h.params, rfl, rfl, rfl⟩

/-- Nothing happens but that `us` answer a request of 4 bytes: they are what the first attempt of its wait loop finds,
and 17 quiet steps follow. -/
def AnsweredSoon (us : List LineUnit) (s : State) : Prop :=
  QuietFor 8 s ∧ Finds us 17 { s with script := s.script.drop 8 }

theorem answeredSoon_of_script {later : List EnvMove} (hrxq : s.rxq = [])
    (hscript : s.script = answerScript us n ++ later)
    (hquiet : ∀ m ∈ (List.replicate n EnvMove.quiet ++ later).take 17, m = EnvMove.quiet) : AnsweredSoon us s := by
  have hsplit : s.script = List.replicate 8 EnvMove.quiet ++
      { EnvMove.quiet with arrivals := us } :: (List.replicate n EnvMove.quiet ++ later) := by
    rw [hscript, answerScript, List.append_assoc, List.cons_append]
  refine ⟨fun m hm => ?_, .inr ⟨hrxq, _, by rw [hsplit]; rfl, hquiet⟩⟩
  rw [hsplit, List.take_left' (List.length_replicate ..)] at hm
  exact List.eq_of_mem_replicate hm

theorem answeredSoon_of_answered (h : Answered s us) : AnsweredSoon us s := by
  obtain ⟨hquiet, hrxq⟩ | ⟨hrxq, n, hscript⟩ := h
  · exact ⟨quietFor_of_quiet hquiet,
      .inl ⟨hrxq, fun m hm => hquiet m (List.mem_of_mem_drop (List.mem_of_mem_take hm))⟩⟩
  · refine answeredSoon_of_script hrxq (hscript.trans (List.append_nil _).symm) fun m hm => ?_
    rw [List.append_nil] at hm
    exact List.eq_of_mem_replicate (List.mem_of_mem_take hm)

/-- `s` when the request `(p, d)` has been answered by `v` from the port `q`, and the value is to be handed over. -/
def responded (p : Byte) (d : List Byte) (q : Byte) (v : Half) (s : State) : State :=
  { s with
    buf := s.buf.writeList 0 (q :: (be16Pack v ++ be16Pack (checksum q (be16Pack v))))
    cursor := 0
    cp := .dOff
    s1Seen := false
    tStart := clockTrunc s.cfg.clockW s.now
    rxKind := .ok
    rxPort := q
    rxLen := 2
    rxp := s.rxp.writeList 0 (be16Pack v)
    ctl := .idle
    tReq := clockTrunc s.cfg.clockW s.now
    enc := none
    rxq := []
    txq := s.txq ++ encodeFrame p d
    now := clockTrunc s.cfg.clockW s.now
    diagLog := s.diagLog ++ [.frameTx p d (checksum p d),
      .frameRx (q :: (be16Pack v ++ be16Pack (checksum q (be16Pack v)))) (checksum q (be16Pack v))
        (checksum q (be16Pack v))]
    script := s.script.drop 26 }

theorem received_awaiting (hd : d.length = 4) :
    { received q (be16Pack v) (awaiting p d s) with ctl := .idle } = responded p d q v s := by
  simp [received, verified, awaiting, enterSent, startAttempt, written, waited, responded, clockTrunc_clockTrunc, hd,
    be16Pack]

theorem byteAt_responded_rxp (p : Byte) (d : List Byte) (q : Byte) (v : Half) (s : State) :
    byteAt (responded p d q v s) .rxp 0 = highByte v ∧ byteAt (responded p d q v s) .rxp 1 = lowByte v ∧
      ∀ i, 2 ≤ i → byteAt (responded p d q v s) .rxp i = byteAt s .rxp i :=
  ⟨byteAt_of_read (Memory.read_writeList_same s.rxp 0 (be16Pack v) 0 Nat.zero_lt_two),
    byteAt_of_read (Memory.read_writeList_same s.rxp 0 (be16Pack v) 1 Nat.one_lt_two),
    fun _ hi => byteAt_congr (Memory.read_writeList_other _ _ _ _ (.inr hi)) rfl⟩

theorem byteAt_responded_buf (p : Byte) (d : List Byte) (q : Byte) (v : Half) (s : State) {i : Nat} (hi : 5 ≤ i) :
    byteAt (responded p d q v s) .buf i = byteAt s .buf i :=
  byteAt_congr (Memory.read_writeList_other _ _ _ _ (.inr hi)) rfl

/-- The value in RXP resolves the request (R197). -/
theorem deliver_received (hd : d.length = 4) (hop : isRequestOp s.curOp = true) :
    deliver .ok (received q (be16Pack v) (awaiting p d s)) =
      commandResult (.success v) (responded p d q v s) := by
  have hbyte {i : Nat} (hi : i < 2) :
      byteAt (received q (be16Pack v) (awaiting p d s)) .rxp i = (be16Pack v)[i]'hi :=
    byteAt_verified_payload q (be16Pack v) _ hi
  have h0 : byteAt (received q (be16Pack v) (awaiting p d s)) .rxp 0 = highByte v := hbyte (by decide)
  have h1 : byteAt (received q (be16Pack v) (awaiting p d s)) .rxp 1 = lowByte v := hbyte (by decide)
  rw [deliver_request .ok (s := received q (be16Pack v) (awaiting p d s)) hop, requestOutcome,
    resolveOk_success rfl h0 h1, received_awaiting hd]

/-- A request of 4 bytes that is answered soon is over after 26 steps. -/
theorem Asking.reaches_responded (h : Asking s) (hd : d.length = 4) (hcap : 5 ≤ s.cfg.bufCap)
    (hanswer : AnsweredSoon (encodeFrame q (be16Pack v)) s) :
    Reaches 26 (startFrame p d s) (commandResult (.success v) (responded p d q v s)) := by
  obtain ⟨hquiet, hfinds⟩ := hanswer
  have hsteps : d.length + 4 = 8 := by rw [hd]
  obtain ⟨hpayload, -⟩ := h.params
  have hawaiting := h.reaches_awaiting p d (hsteps ▸ hquiet)
  have hscript : (awaiting p d s).script = s.script.drop 8 := congrArg s.script.drop hsteps
  have hfinds' : Finds (encodeFrame q (be16Pack v)) 17 (awaiting p d s) := by
    rw [Finds, QuietFor, hscript]
    exact hfinds
  have hfound := (h.beginning p d).reaches_found (d := be16Pack v) (Nat.le_trans (by decide : 2 ≤ 4) hpayload) hcap
    hfinds'
  rw [deliver_received hd h.request] at hfound
  rw [hsteps] at hawaiting
  exact hawaiting.trans hfound

end

/-! ### The commands -/

/-- `s` when the word of `op` has been accepted (R38). -/
def accepted (op : Nibble) (p : Byte) (a b : Half) (s : State) : State :=
  { s with curOp := op, opPort := p, opA := a, opB := b, busy := true }

section
variable {op : Nibble} {p q : Byte} {a b v : Half} {r : Resolution} {s t u : State}

theorem asking_accepted (hs : Quiescent s) (hparams : s.cfg.Valid) (hop : isRequestOp op = true) :
    Asking (accepted op p a b s) :=
  ⟨rfl, hop, hs.off, hs.idle, hparams⟩

theorem perform_request {first : State → State} (hs : Quiescent s) (hop : isRequestOp op = true) :
    perform (commandWord op 0 p a b) first s = runOperation (first (accepted op p a b s)) := by
  have haccepted : refuses s.cfg s.busy (commandWord op 0 p a b) = false := by
    rw [← hs.notBusy]
    obtain rfl | rfl | rfl | rfl := isRequestOp_cases hop <;>
      exact refuses_plain _ _ _ _ _ _ rfl (by decide) (by decide)
  rw [perform_accepted haccepted, accept_commandWord]
  rfl

theorem exec_query (hs : Quiescent s) :
    exec (.query p a b) s = runOperation (startFrame p (requestPayload a b) (accepted opQuery p a b s)) := by
  rw [exec, execQuery, perform_request hs rfl]
  rfl

theorem exec_control (hs : Quiescent s) :
    exec (.control p a b) s = runOperation (startFrame p (requestPayload a b) (accepted opControl p a b s)) := by
  rw [exec, execControl, perform_request hs rfl]
  rfl

theorem exec_scan (hs : Quiescent s) :
    exec (.scan p a b) s =
      runOperation (startFrame p (requestPayload s.cfg.devtypeReg 0) (accepted opScan p a b s)) := by
  rw [exec, execScan, perform_request hs rfl]
  rfl

theorem exec_getRevision (hs : Quiescent s) :
    exec (.getRevision p a b) s =
      runOperation (startFrame p (requestPayload s.cfg.revRegA 0)
        { accepted opGetRevision p a b s with revIdx := 0 }) := by
  rw [exec, execGetRevision, perform_request hs rfl]
  rfl

theorem le_stepBound {n : Nat} (h : n ≤ 300) (s : State) : n ≤ stepBound s := h.trans (Nat.le_add_left ..)

/-- The request command of `op`, accepted in `s`, has had its request `d` answered by `v` from the port `q`. -/
def answeredCommand (op : Nibble) (p : Byte) (a b : Half) (d : List Byte) (q : Byte) (v : Half) (s : State) : State :=
  responded p d q v (accepted op p a b s)

/-- A request command whose one request is answered ends with its result. -/
theorem runOperation_answered {d : List Byte} (hd : d.length = 4) (hs : Quiescent s) (hparams : s.cfg.Valid)
    (hcap : 5 ≤ s.cfg.bufCap) (hanswer : Answered s (encodeFrame q (be16Pack v))) (hop : isRequestOp op = true)
    (hresult : commandResult (.success v) (answeredCommand op p a b d q v s) = t) (hidle : t.busy = false) :
    runOperation (startFrame p d (accepted op p a b s)) = .next t := by
  have hsoon : AnsweredSoon (encodeFrame q (be16Pack v)) (accepted op p a b s) := answeredSoon_of_answered hanswer
  have hreaches := (asking_accepted hs hparams hop).reaches_responded (p := p) hd hcap hsoon
  exact runOperation_of_reaches (hresult ▸ hreaches) (le_stepBound (by decide) _) (atRest_of_idle hidle)

/-- Settles O29: the value goes to `Q_VALUE`. -/
theorem queryReturnsTheValue : Obligations.QueryReturnsTheValue := by
  intro p a b q v s hparams hcap hs hanswer
  set u := answeredCommand opQuery p a b (requestPayload a b) q v s with hu
  have hrun := runOperation_answered rfl hs hparams hcap hanswer rfl (commandResult_query (s := u) _ rfl) rfl
  obtain ⟨hhigh, hlow, hrxp⟩ := byteAt_responded_rxp p (requestPayload a b) q v (accepted opQuery p a b s)
  have hbuf (i : Nat) (hi : 5 ≤ i) : byteAt u .buf i = byteAt s .buf i := byteAt_responded_buf _ _ _ _ _ hi
  exact ⟨_, (exec_query hs).trans hrun, ⟨rfl, rfl, rfl, rfl⟩, rfl, ⟨rfl, rfl, rfl, rfl⟩, rfl, rfl, rfl, rfl, rfl, rfl,
    hhigh, hlow, hrxp, hbuf, rfl, rfl, rfl, rfl, rfl, rfl, rfl, ⟨rfl, rfl, rfl, rfl⟩, ⟨rfl, rfl, fun _ => rfl⟩⟩

/-- Settles O30: whatever the value, `C_OK` is 1. -/
theorem controlReportsTheResponse : Obligations.ControlReportsTheResponse := by
  intro p a b q v s hparams hcap hs hanswer
  set u := answeredCommand opControl p a b (requestPayload a b) q v s with hu
  have hrun := runOperation_answered rfl hs hparams hcap hanswer rfl (commandResult_control (s := u) _ rfl) rfl
  obtain ⟨-, -, hrxp⟩ := byteAt_responded_rxp p (requestPayload a b) q v (accepted opControl p a b s)
  have hbuf (i : Nat) (hi : 5 ≤ i) : byteAt u .buf i = byteAt s .buf i := byteAt_responded_buf _ _ _ _ _ hi
  exact ⟨_, (exec_control hs).trans hrun, ⟨rfl, rfl, rfl, rfl⟩, ⟨rfl, rfl, rfl, rfl⟩, rfl, rfl, rfl, rfl, rfl, rfl,
    hrxp, hbuf, rfl, rfl, rfl, rfl, rfl, rfl, ⟨rfl, rfl, rfl, rfl⟩, ⟨rfl, rfl, fun _ => rfl⟩⟩

theorem devtypeLookup_eq_lookup (table : List (Half × Byte)) (v : Half) :
    devtypeLookup table v = table.lookup v := by
  induction table with
  | nil => rfl
  | cons e rest ih =>
    obtain ⟨k, d⟩ := e
    by_cases h : k = v
    · simp [devtypeLookup, h]
    · have hne : (v == k) = false := by simpa using Ne.symm h
      simp [devtypeLookup, List.lookup, h, hne, ih]

/-- What SCAN makes of a raw value (R202, R241). -/
theorem commandResult_scan_success (h : s.curOp = opScan) :
    (∀ d, s.cfg.devtypeTable.lookup v = some d →
      commandResult (.success v) s = { s with sDevtype := d, busy := false }) ∧
    (s.cfg.devtypeTable.lookup v = none →
      commandResult (.success v) s = { s with
        sDevtype := 0, busy := false, diagLog := s.diagLog ++ [.fail .unresolvedDeviceType v] }) := by
  rw [commandResult_scan _ h, scanResult, devtypeLookup_eq_lookup]
  exact ⟨fun d hd => by rw [hd]; rfl, fun hd => by rw [hd]; rfl⟩

/-- Settles O31: the table gives the kind, or gives none. -/
theorem scanMapsTheRawValue : Obligations.ScanMapsTheRawValue := by
  intro p a b q v s hparams hcap hs hanswer
  set u := answeredCommand opScan p a b (requestPayload s.cfg.devtypeReg 0) q v s with hu
  obtain ⟨hkind, hnone⟩ := commandResult_scan_success (s := u) (v := v) rfl
  obtain ⟨-, -, hrxp⟩ :=
    byteAt_responded_rxp p (requestPayload s.cfg.devtypeReg 0) q v (accepted opScan p a b s)
  have hbuf (i : Nat) (hi : 5 ≤ i) : byteAt u .buf i = byteAt s .buf i := byteAt_responded_buf _ _ _ _ _ hi
  cases hlookup : s.cfg.devtypeTable.lookup v with
  | some d =>
    have hrun := runOperation_answered rfl hs hparams hcap hanswer rfl (hkind d hlookup) rfl
    refine ⟨_, (exec_scan hs).trans hrun, ⟨rfl, rfl, rfl, rfl⟩, ⟨rfl, rfl, rfl, rfl⟩, rfl, ?_, nofun, rfl, rfl, rfl,
      hrxp, hbuf, rfl, rfl, rfl, rfl, rfl, rfl, ⟨rfl, rfl, rfl, rfl⟩, ⟨rfl, rfl, fun _ => rfl⟩⟩
    rintro _ ⟨⟩
    exact ⟨rfl, by simp [hu, answeredCommand, responded, accepted]⟩
  | none =>
    have hrun := runOperation_answered rfl hs hparams hcap hanswer rfl (hnone hlookup) rfl
    exact ⟨_, (exec_scan hs).trans hrun, ⟨rfl, rfl, rfl, rfl⟩, ⟨rfl, rfl, rfl, rfl⟩, rfl, nofun,
      fun _ => ⟨rfl, List.getLast?_concat ..⟩, rfl, rfl, rfl, hrxp, hbuf, rfl, rfl, rfl, rfl, rfl, rfl,
      ⟨rfl, rfl, rfl, rfl⟩, ⟨rfl, rfl, fun _ => rfl⟩⟩

end

end Sys2Proof.Machine
end

section
/-! SUPPORT. GET_REVISION (spec 44_controller.md R203): three requests, each answered in turn. -/

namespace Sys2Proof.Machine

open Sys2Proof.Safety

section
variable {p q : Byte} {d : List Byte} {v : Half} {us : List LineUnit} {s : State}

/-- After the 26 steps of one answer the script is what followed it. -/
theorem drop_answerScript (us : List LineUnit) (later : List EnvMove) :
    (answerScript us 17 ++ later).drop 26 = later :=
  List.drop_left' (by simp [answerScript])

theorem take_replicate_quiet {later : List EnvMove} :
    ∀ m ∈ (List.replicate 17 EnvMove.quiet ++ later).take 17, m = EnvMove.quiet := fun m hm => by
  rw [List.take_left' (List.length_replicate ..)] at hm
  exact List.eq_of_mem_replicate hm

/-- GET_REVISION, begun in `s`, has sent the units `us` and is about to send the request of a sub-query, or has had it
answered: its latch, and what it leaves alone. -/
structure InRevision (p : Byte) (a b : Half) (s : State) (us : List LineUnit) (u : State) : Prop extends Asking u where
  latch : Latched opGetRevision p a b u
  noFrame : u.enc = none
  cfg : u.cfg = s.cfg
  line : u.txq = s.txq ++ us
  taken : u.rxq = []
  rxp : ∀ i, 2 ≤ i → byteAt u .rxp i = byteAt s .rxp i
  buf : ∀ i, 5 ≤ i → byteAt u .buf i = byteAt s .buf i
  others : u.qValue = s.qValue ∧ u.cOk = s.cOk ∧ u.sDevtype = s.sDevtype
  device : KeepsDevice s u
  channel : KeepsChannel s u

section
variable {a b : Half} {sent : List LineUnit} {later : List EnvMove} {u : State}

theorem InRevision.afterAnswer (h : InRevision p a b s sent u) (d : List Byte) (q : Byte) (v : Half) :
    InRevision p a b s (sent ++ encodeFrame p d) (responded p d q v u) := by
  obtain ⟨-, -, hrxp⟩ := byteAt_responded_rxp p d q v u
  exact {
    busy := h.busy
    request := h.request
    off := rfl
    idle := rfl
    params := h.params
    latch := h.latch
    noFrame := rfl
    cfg := h.cfg
    line := by rw [← List.append_assoc, ← h.line]; rfl
    taken := rfl
    rxp := fun i hi => (hrxp i hi).trans (h.rxp i hi)
    buf := fun i hi => (byteAt_responded_buf p d q v u hi).trans (h.buf i hi)
    others := h.others
    device := h.device
    channel := h.channel }

/-- The transients of GET_REVISION are its own (R43). -/
theorem InRevision.withVal (h : InRevision p a b s sent u) (i j : Fin 3) (v : Half) :
    InRevision p a b s sent { setVal i v u with revIdx := j } := by
  obtain ⟨⟨hbusy, hrequest, hoff, hidle, hparams⟩, hlatch, henc, hcfg, hline, htaken, hrxp, hbuf, hothers, hdevice,
    hchannel⟩ := h
  unfold setVal
  split <;> exact ⟨⟨hbusy, hrequest, hoff, hidle, hparams⟩, hlatch, henc, hcfg, hline, htaken, hrxp, hbuf, hothers,
    hdevice, hchannel⟩

theorem setVal_responded_vals (i : Fin 3) (v w : Half) (p : Byte) (d : List Byte) (q : Byte) (u : State) :
    (setVal i v (responded p d q w u)).val0 = (setVal i v u).val0 ∧
      (setVal i v (responded p d q w u)).val1 = (setVal i v u).val1 := by
  unfold setVal
  split <;> exact ⟨rfl, rfl⟩

theorem setVal_script (i : Fin 3) (v : Half) (u : State) : (setVal i v u).script = u.script := by
  unfold setVal
  split <;> rfl

theorem setVal_opPort (i : Fin 3) (v : Half) (u : State) : (setVal i v u).opPort = u.opPort := by
  unfold setVal
  split <;> rfl

/-- The first two values are kept, and the next request is sent (R203). -/
theorem revisionResult_next {i : Fin 3} (hi : i ≠ 2) (hidx : u.revIdx = i) :
    revisionResult (.success v) u = startSubQuery (i + 1) (setVal i v u) := by
  rw [revisionResult, hidx]
  match i, hi with
  | 0, _ => rfl
  | 1, _ => rfl
  | 2, hi => exact absurd rfl hi

/-- A sub-query of GET_REVISION that is answered, but for the last. -/
theorem InRevision.next {i : Fin 3} (h : InRevision p a b s sent u) (hcap : 5 ≤ s.cfg.bufCap) (hi : i ≠ 2)
    (hidx : u.revIdx = i) (hscript : u.script = answerScript (encodeFrame q (be16Pack v)) 17 ++ later) :
    ∃ t, Reaches 26 (startFrame p (requestPayload (revisionRegister s.cfg i) 0) u)
        (startFrame p (requestPayload (revisionRegister s.cfg (i + 1)) 0) t) ∧
      InRevision p a b s (sent ++ encodeFrame p (requestPayload (revisionRegister s.cfg i) 0)) t ∧
      t.revIdx = i + 1 ∧ t.val0 = (setVal i v u).val0 ∧ t.val1 = (setVal i v u).val1 ∧ t.script = later := by
  obtain ⟨hop, hport, -, -⟩ := h.latch
  set r := responded p (requestPayload (revisionRegister s.cfg i) 0) q v u with hr
  have hnext : commandResult (.success v) r =
      startFrame p (requestPayload (revisionRegister s.cfg (i + 1)) 0) { setVal i v r with revIdx := i + 1 } := by
    have hcfg : (setVal i v r).cfg = s.cfg := (setVal_cfg ..).trans h.cfg
    have hsame : (setVal i v r).opPort = p := (setVal_opPort ..).trans hport
    rw [commandResult_getRevision (s := r) _ hop, revisionResult_next hi (u := r) hidx]
    exact congrArg₂ (fun c port => startFrame port (requestPayload (revisionRegister c (i + 1)) 0)
      { setVal i v r with revIdx := i + 1 }) hcfg hsame
  have hreaches := h.toAsking.reaches_responded (p := p) (d := requestPayload (revisionRegister s.cfg i) 0) rfl
    (h.cfg ▸ hcap) (answeredSoon_of_script h.taken hscript take_replicate_quiet)
  rw [← hr, hnext] at hreaches
  obtain ⟨hval0, hval1⟩ := setVal_responded_vals i v v p (requestPayload (revisionRegister s.cfg i) 0) q u
  have hlater : (setVal i v r).script = later :=
    (setVal_script ..).trans ((congrArg (List.drop 26) hscript).trans (drop_answerScript ..))
  exact ⟨_, hreaches, (h.afterAnswer _ q v).withVal i (i + 1) v, rfl, hval0, hval1, hlater⟩

end

end

/-- Settles O32: the first two values make GET_REVISION ask for the next register, the third ends it. -/
theorem getRevisionReadsThree : Obligations.GetRevisionReadsThree := by
  intro p a b q0 q1 q2 v0 v1 v2 n s hparams hcap hs hrxq hscript
  set s0 : State := { accepted opGetRevision p a b s with revIdx := 0 } with hs0
  have hbegin : InRevision p a b s [] s0 :=
    ⟨⟨rfl, rfl, hs.off, hs.idle, hparams⟩, ⟨rfl, rfl, rfl, rfl⟩, hs.noFrame, rfl, (List.append_nil _).symm, hrxq,
      fun _ _ => rfl, fun _ _ => rfl, ⟨rfl, rfl, rfl⟩, ⟨rfl, rfl, rfl, rfl⟩, ⟨rfl, rfl, fun _ => rfl⟩⟩
  obtain ⟨s1, hfirst, hin1, hidx1, hval01, -, hscript1⟩ :=
    hbegin.next (i := 0) hcap (by decide) rfl (hscript.trans (List.append_assoc ..))
  obtain ⟨s2, hsecond, hin2, hidx2, hval02, hval12, hscript2⟩ := hin1.next (i := 1) hcap (by decide) hidx1 hscript1
  set u := responded p (requestPayload s.cfg.revRegC 0) q2 v2 s2 with hu
  have hin3 := hin2.afterAnswer (requestPayload s.cfg.revRegC 0) q2 v2
  rw [← hu] at hin3
  have hresult : commandResult (.success v2) u = revisionDone (setVal 2 v2 u) := by
    rw [commandResult_getRevision (s := u) _ hin3.latch.1, revisionResult, show u.revIdx = 2 from hidx2]
  have hthird := hin2.toAsking.reaches_responded (p := p) (d := requestPayload s.cfg.revRegC 0) rfl
    (hin2.cfg ▸ hcap) (answeredSoon_of_answered (.inr ⟨hin2.taken, n, hscript2⟩))
  rw [← hu, hresult] at hthird
  have hrun := runOperation_of_reaches ((hfirst.trans hsecond).trans hthird) (le_stepBound (by decide) _)
    (atRest_of_idle rfl)
  obtain ⟨-, hlatch, hnoFrame, -, hline, htaken, hrxp, hbuf, ⟨hq, hc, hd⟩, hdevice, hchannel⟩ := hin3
  exact ⟨_, (exec_getRevision hs).trans hrun, ⟨rfl, rfl, rfl, rfl⟩, hlatch, hval02.trans hval01, hval12, rfl, rfl,
    hline.trans (by simp [revisionRegister]), rfl, rfl, rfl, rfl, hrxp, hbuf, hq, hc, hd, hdevice, hchannel⟩

end Sys2Proof.Machine
end

section
/-! SUPPORT. A request that fails: its first attempt ends with anything but a 2-byte response (spec 44_controller.md
R197, R199 to R203, R246). -/

namespace Sys2Proof.Machine

open Sys2Proof.Safety

section
variable {op : Nibble} {p : Byte} {a b : Half} {d : List Byte} {r : Resolution} {s t u : State}

/-- The request `(p, d)` of the operation in progress in `s` has been sent and has failed in `u`, the last attempt
having ended with `k` and the log being `l`. -/
structure Failed (p : Byte) (d : List Byte) (k : Kind) (l : List DiagEvent) (s u : State) : Prop where
  off : u.cp = .dOff
  idle : u.ctl = .idle
  noFrame : u.enc = none
  line : u.txq = s.txq ++ encodeFrame p d
  kind : u.rxKind = k
  log : u.diagLog = l
  command : u.curOp = s.curOp

/-- The operation that begins with the request `(p, d)` ends with the result of a failure. -/
def EndsFailed (p : Byte) (d : List Byte) (k : Kind) (l : List DiagEvent) (s : State) : Prop :=
  ∃ r u, Fails r ∧ Failed p d k l s u ∧
    ((commandResult r u).busy = false → runOperation (startFrame p d s) = .next (commandResult r u))

/-! ### The sentinels -/

theorem query_sentinel {k : Kind} {l : List DiagEvent} (hs : Quiescent s)
    (h : EndsFailed p (requestPayload a b) k l (accepted opQuery p a b s)) :
    ∃ t, exec (.query p a b) s = .next t ∧ Quiescent t ∧ t.qValue = 0xFFFF ∧
      t.txq = s.txq ++ encodeFrame p (requestPayload a b) ∧ t.rxKind = k ∧ t.diagLog = l := by
  obtain ⟨r, u, hfails, ⟨hoff, hidle, henc, hline, hkind, hlog, hop⟩, hrun⟩ := h
  rw [commandResult_query_failed hop hfails] at hrun
  exact ⟨_, (exec_query hs).trans (hrun rfl), ⟨rfl, hoff, hidle, henc⟩, rfl, hline, hkind, hlog⟩

theorem control_sentinel {k : Kind} {l : List DiagEvent} (hs : Quiescent s)
    (h : EndsFailed p (requestPayload a b) k l (accepted opControl p a b s)) :
    ∃ t, exec (.control p a b) s = .next t ∧ Quiescent t ∧ t.cOk = false ∧
      t.txq = s.txq ++ encodeFrame p (requestPayload a b) ∧ t.rxKind = k ∧ t.diagLog = l := by
  obtain ⟨r, u, hfails, ⟨hoff, hidle, henc, hline, hkind, hlog, hop⟩, hrun⟩ := h
  rw [commandResult_control_failed hop hfails] at hrun
  exact ⟨_, (exec_control hs).trans (hrun rfl), ⟨rfl, hoff, hidle, henc⟩, rfl, hline, hkind, hlog⟩

theorem scan_sentinel {k : Kind} {l : List DiagEvent} (hs : Quiescent s)
    (h : EndsFailed p (requestPayload s.cfg.devtypeReg 0) k l (accepted opScan p a b s)) :
    ∃ t, exec (.scan p a b) s = .next t ∧ Quiescent t ∧ t.sDevtype = 0 ∧
      t.txq = s.txq ++ encodeFrame p (requestPayload s.cfg.devtypeReg 0) ∧ t.rxKind = k ∧ t.diagLog = l := by
  obtain ⟨r, u, hfails, ⟨hoff, hidle, henc, hline, hkind, hlog, hop⟩, hrun⟩ := h
  rw [commandResult_scan_failed hop hfails] at hrun
  exact ⟨_, (exec_scan hs).trans (hrun rfl), ⟨rfl, hoff, hidle, henc⟩, rfl, hline, hkind, hlog⟩

theorem getRevision_sentinel {k : Kind} {l : List DiagEvent} (hs : Quiescent s)
    (h : EndsFailed p (requestPayload s.cfg.revRegA 0) k l { accepted opGetRevision p a b s with revIdx := 0 }) :
    ∃ t, exec (.getRevision p a b) s = .next t ∧ Quiescent t ∧
      t.revA = 0xFFFF ∧ t.revB = 0xFFFF ∧ t.revC = 0xFFFF ∧ t.revOk = false ∧
      t.txq = s.txq ++ encodeFrame p (requestPayload s.cfg.revRegA 0) ∧ t.rxKind = k ∧ t.diagLog = l := by
  obtain ⟨r, u, hfails, ⟨hoff, hidle, henc, hline, hkind, hlog, hop⟩, hrun⟩ := h
  rw [commandResult_getRevision_failed hop hfails] at hrun
  exact ⟨_, (exec_getRevision hs).trans (hrun rfl), ⟨rfl, hoff, hidle, henc⟩, rfl, rfl, rfl, rfl, hline, hkind, hlog⟩

/-! ### A failed attempt -/

/-- Units that wait are never NO_DATA (R143). -/
theorem decodeQueue_ne_noData {c : Params} {q : List LineUnit} (hq : q ≠ []) : (decodeQueue c q).kind ≠ .noData := by
  cases hbytes : (collect c [] q).bytes with
  | none =>
    rw [decodeQueue_overflow hq hbytes]
    nofun
  | some bytes =>
    by_cases hshort : bytes.length < 3
    · rw [decodeQueue_truncated hq hbytes hshort]
      nofun
    obtain ⟨p, d, ck, rfl, -⟩ := exists_frame_of_length (Nat.le_of_not_lt hshort)
    by_cases hck : ck = checksum p d
    · rw [decodeQueue_verified hq (hck ▸ hbytes)]
      nofun
    · rw [decodeQueue_rejected hq hbytes hck]
      nofun

/-- On a quiet line whose units are no 2-byte response the first attempt resolves the request as a failure. -/
theorem Asking.endsFailed (h : Asking s) (p : Byte) (hd : d.length = 4) (hquiet : QuietScript s) (hrxq : s.rxq ≠ [])
    (hno : ¬ ((decodeQueue s.cfg s.rxq).kind = .ok ∧ (decodeQueue s.cfg s.rxq).payload.length = 2)) :
    ∃ l, EndsFailed p d (decodeQueue s.cfg s.rxq).kind l s := by
  have hlater : QuietScript (awaiting p d s) := fun m hm => hquiet m (List.mem_of_mem_drop hm)
  have hattempt : InAttempt (awaiting p d s) := ⟨h.busy, rfl, nofun, h.params, noArrivals_of_quiet hlater⟩
  obtain ⟨k, r, log, u, hk, hends, hreaches⟩ := hattempt.ends rfl rfl rfl
  have hview := hends.view
  obtain ⟨-, hlate⟩ | ⟨rfl, -⟩ := hends.outcome
  · exact absurd hlate (scriptTicks_of_quiet hlater ▸ Nat.not_lt_zero _)
  change Reaches k _ (deliver (decodeQueue s.cfg s.rxq).kind (ended (decodeQueue s.cfg s.rxq) log u)) at hreaches
  set e := ended (decodeQueue s.cfg s.rxq) log u with he
  have hop : e.curOp = s.curOp := (congrArg State.curOp hview :)
  have hlen : (decodeQueue s.cfg s.rxq).kind = .ok → e.rxLen ≠ 2 := by
    intro hok htwo
    obtain ⟨-, hfits⟩ := decodeQueue_outcome h.params s.rxq
    have hrxLen : e.rxLen = BitVec.ofNat 8 (decodeQueue s.cfg s.rxq).payload.length := if_pos hok
    rw [← ofNat_length_toNat h.params (hfits hok), ← hrxLen, htwo] at hno
    exact hno ⟨hok, rfl⟩
  obtain ⟨r, l, hfails, hresolved⟩ := requestOutcome_failed (s := e) (decodeQueue_ne_noData hrxq) hlen
  rw [deliver_request _ (by rw [hop]; exact h.request), hresolved] at hreaches
  refine ⟨_, r, unsent l e, hfails,
    ⟨rfl, rfl, (congrArg State.enc hview :), (congrArg State.txq hview :), rfl, rfl, hop⟩, fun hidle => ?_⟩
  have hunits : s.rxq.length ≤ unitsToCome (startFrame p d s) := Nat.le_add_right ..
  have hbound : d.length + 4 + k ≤ stepBound (startFrame p d s) := by
    have hk' : k ≤ 3 * s.rxq.length + 3 := hk
    rw [stepBound]
    omega
  exact runOperation_of_reaches ((h.reaches_awaiting p d (quietFor_of_quiet hquiet)).trans hreaches) hbound
    (atRest_of_idle hidle)

/-- Settles O33: the request of each command fails alike, and each makes its sentinel of it. -/
theorem failureGivesTheSentinel : Obligations.FailureGivesTheSentinel := by
  intro p a b s hparams hs hquiet hrxq hno
  have hfails {op : Nibble} (hop : isRequestOp op = true) (i : Fin 3) {d : List Byte} (hd : d.length = 4) :
      ∃ l, EndsFailed p d (decodeQueue s.cfg s.rxq).kind l { accepted op p a b s with revIdx := i } :=
    Asking.endsFailed (s := { accepted op p a b s with revIdx := i }) ⟨rfl, hop, hs.off, hs.idle, hparams⟩ p hd hquiet
      hrxq hno
  obtain ⟨lq, hquery⟩ := hfails (op := opQuery) rfl s.revIdx (d := requestPayload a b) rfl
  obtain ⟨lc, hcontrol⟩ := hfails (op := opControl) rfl s.revIdx (d := requestPayload a b) rfl
  obtain ⟨ls, hscan⟩ := hfails (op := opScan) rfl s.revIdx (d := requestPayload s.cfg.devtypeReg 0) rfl
  obtain ⟨lr, hrevision⟩ := hfails (op := opGetRevision) rfl 0 (d := requestPayload s.cfg.revRegA 0) rfl
  obtain ⟨tq, hqexec, hqidle, hqv, hqline, hqkind, -⟩ := query_sentinel hs hquery
  obtain ⟨tc, hcexec, hcidle, hcok, hcline, hckind, -⟩ := control_sentinel hs hcontrol
  obtain ⟨ts, hsexec, hsidle, hsd, hsline, hskind, -⟩ := scan_sentinel hs hscan
  obtain ⟨tr, hrexec, hridle, hra, hrb, hrc, hrok, hrline, hrkind, -⟩ := getRevision_sentinel hs hrevision
  exact ⟨⟨tq, hqexec, hqidle, hqv, hqline, hqkind⟩, ⟨tc, hcexec, hcidle, hcok, hcline, hckind⟩,
    ⟨ts, hsexec, hsidle, hsd, hsline, hskind⟩, ⟨tr, hrexec, hridle, hra, hrb, hrc, hrok, hrline, hrkind⟩⟩

end

end Sys2Proof.Machine
end

section
/-! SUPPORT. A request that nobody answers (spec 44_controller.md R196, R294; 50_timing.md R256): its first attempt ends
NO_DATA, and the S6 that follows compares the clock. -/

namespace Sys2Proof.Machine

open Sys2Proof.Safety

section
variable {p : Byte} {a b : Half} {d : List Byte} {n : Nat} {s t : State}

/-! ### The clock at S6 -/

/-- What the block measures `n` milliseconds after it has sampled the clock, `n` within the clock's width. -/
theorem elapsed_later {w : Nat} (hw : w ≤ 32) (hn : n < 2 ^ w) (t : Clock) :
    (elapsed w t (BitVec.ofNat 32 ((t.toNat + n) % 2 ^ w))).toNat = n := by
  have hdvd : 2 ^ w ∣ 2 ^ 32 := Nat.pow_dvd_pow 2 hw
  have hlt : (t.toNat + n) % 2 ^ w < 2 ^ 32 :=
    (Nat.mod_lt _ (Nat.two_pow_pos w)).trans_le (Nat.le_of_dvd (by decide) hdvd)
  have hsum : 2 ^ 32 - t.toNat + (t.toNat + n) = 2 ^ 32 + n := by have := t.isLt; omega
  rw [elapsed_toNat hw, BitVec.toNat_ofNat, Nat.mod_eq_of_lt hlt, Nat.add_mod_mod, hsum, Nat.add_mod,
    Nat.mod_eq_zero_of_dvd hdvd, Nat.zero_add, Nat.mod_mod, Nat.mod_eq_of_lt hn]

/-! ### A poll -/

theorem Reaches.of_tick_next (hmoving : atRest s = false) (h : tick s = .next t) : Reaches 1 s t := fun j => by
  rw [Nat.add_comm, runSteps_succ hmoving, h, andThen_next]

/-- `s` when its attempt has found nothing (R143, R159). -/
def silent (s : State) : State := raiseKind .noData (passed s)

/-- An attempt of a request that finds nothing leaves the request in its wait loop. -/
theorem Beginning.reaches_silent (h : Beginning s) (hop : isRequestOp s.curOp = true) (hcalm : NoArrivals s)
    (hrxq : s.rxq = []) : Reaches 1 s (silent s) := by
  refine .of_tick_next (atRest_of_working h.busy (.inl h.running)) ?_
  rw [tick_of_noArrivals hcalm, act_begin_s1 (s := passed s) h.noFrame h.begun h.noS1,
    testAvailable_silent (s := passed s) h.empty hrxq, endAttempt, deliver_request _ (by exact hop)]
  rfl

/-- A request in its wait loop, between two attempts. -/
structure Polling (s : State) : Prop where
  busy : s.busy = true
  request : isRequestOp s.curOp = true
  off : s.cp = .dOff
  noFrame : s.enc = none
  sent : s.ctl = .sent
  params : s.cfg.Valid

theorem Beginning.polling_silent (h : Beginning s) (hop : isRequestOp s.curOp = true) (hctl : s.ctl = .sent) :
    Polling (silent s) :=
  ⟨h.busy, hop, rfl, h.noFrame, hctl, h.params⟩

theorem Polling.passed (h : Polling s) : Polling (passed s) :=
  ⟨h.busy, h.request, h.off, h.noFrame, h.sent, h.params⟩

theorem Polling.beginning (h : Polling s) : Beginning (startAttempt s) :=
  ⟨h.busy, h.noFrame, h.params, rfl, rfl, rfl⟩

/-- S6, while the environment still has something to do. -/
theorem Polling.reaches_pollDeadline (h : Polling s) (hcalm : NoArrivals s) (hscript : s.script ≠ []) :
    Reaches 1 s (pollDeadline (Machine.passed s)) := by
  have hmoving : atRest s = false := by simp [atRest, waitsOnSilence, h.busy, hscript]
  refine .of_tick_next hmoving ?_
  rw [tick_of_noArrivals hcalm, act_off (s := Machine.passed s) h.noFrame h.off, betweenAttempts,
    if_pos h.passed.request, controllerTick, h.passed.sent]

theorem pollDeadline_late (h : deadlinePassed s.cfg s.tReq s.now s.timeout = true) :
    pollDeadline s = concludeRequest .timeout (emit .timeoutEvt s) :=
  if_pos h

theorem pollDeadline_inTime (h : ¬ deadlinePassed s.cfg s.tReq s.now s.timeout = true) :
    pollDeadline s = startAttempt s :=
  if_neg h

/-! ### Silence -/

/-- `s` at the first S6 of a request `(p, d)` that has found nothing. -/
def unanswered (p : Byte) (d : List Byte) (s : State) : State := passed (silent (awaiting p d s))

section
variable (p : Byte) (d : List Byte) (s : State)

theorem silent_cfg : (silent s).cfg = s.cfg := rfl
theorem awaiting_cfg : (awaiting p d s).cfg = s.cfg := rfl
theorem unanswered_cfg : (unanswered p d s).cfg = s.cfg := (silent_cfg _).trans (awaiting_cfg p d s)

theorem silent_timeout : (silent s).timeout = s.timeout := rfl
theorem awaiting_timeout : (awaiting p d s).timeout = s.timeout := rfl
theorem unanswered_timeout : (unanswered p d s).timeout = s.timeout := (silent_timeout _).trans (awaiting_timeout p d s)

theorem silent_curOp : (silent s).curOp = s.curOp := rfl
theorem awaiting_curOp : (awaiting p d s).curOp = s.curOp := rfl
theorem unanswered_curOp : (unanswered p d s).curOp = s.curOp := (silent_curOp _).trans (awaiting_curOp p d s)

theorem silent_qValue : (silent s).qValue = s.qValue := rfl
theorem awaiting_qValue : (awaiting p d s).qValue = s.qValue := rfl
theorem unanswered_qValue : (unanswered p d s).qValue = s.qValue := (silent_qValue _).trans (awaiting_qValue p d s)

theorem silent_rxq : (silent s).rxq = s.rxq := rfl
theorem awaiting_rxq : (awaiting p d s).rxq = s.rxq := rfl
theorem unanswered_rxq : (unanswered p d s).rxq = s.rxq := (silent_rxq _).trans (awaiting_rxq p d s)

theorem unanswered_diagLog : (unanswered p d s).diagLog = s.diagLog ++ [.frameTx p d (checksum p d)] := rfl

end

theorem awaiting_script (hd : d.length = 4) (hscript : s.script = silenceScript n) :
    (awaiting p d s).script = [EnvMove.quiet, { EnvMove.quiet with ticks := n }] := by
  have hdrop : (awaiting p d s).script = s.script.drop (d.length + 4) := rfl
  rw [hdrop, hscript, hd]
  rfl

theorem noArrivals_awaiting (hd : d.length = 4) (hscript : s.script = silenceScript n) :
    NoArrivals (awaiting p d s) := by
  intro m hm
  rw [awaiting_script hd hscript] at hm
  obtain rfl | hm := List.mem_cons.mp hm
  · exact ⟨rfl, rfl, rfl⟩
  · rw [List.mem_singleton.mp hm]
    exact ⟨rfl, rfl, rfl⟩

theorem unanswered_script (hd : d.length = 4) (hscript : s.script = silenceScript n) :
    (unanswered p d s).script = [] := by
  have htail : (unanswered p d s).script = (awaiting p d s).script.tail.tail := rfl
  rw [htail, awaiting_script hd hscript]
  rfl

/-- In `silenceScript` the tenth step of a request of 4 bytes is the first S6. -/
theorem Asking.reaches_unanswered (h : Asking s) (p : Byte) (hd : d.length = 4) (hrxq : s.rxq = [])
    (hscript : s.script = silenceScript n) :
    Reaches 10 (startFrame p d s) (pollDeadline (unanswered p d s)) := by
  have hquiet : QuietFor (d.length + 4) s := by
    intro m hm
    rw [hscript, hd] at hm
    exact List.eq_of_mem_replicate (n := 8) hm
  have hcalm : NoArrivals (awaiting p d s) := noArrivals_awaiting hd hscript
  have hmore : (silent (awaiting p d s)).script ≠ [] := by
    have htail : (silent (awaiting p d s)).script = (awaiting p d s).script.tail := rfl
    rw [htail, awaiting_script hd hscript]
    nofun
  have hpoll := (h.beginning p d).reaches_silent h.request hcalm hrxq
  have hpolling : Polling (silent (awaiting p d s)) := (h.beginning p d).polling_silent h.request rfl
  have hs6 := hpolling.reaches_pollDeadline (noArrivals_passed hcalm) hmore
  have hsteps : d.length + 4 + 1 + 1 = 10 := by rw [hd]
  exact hsteps ▸ ((h.reaches_awaiting p d hquiet).trans hpoll).trans hs6

/-- At that S6 the clock stands `n` milliseconds after S0. -/
theorem elapsed_unanswered (hparams : s.cfg.Valid) (hn : n < 2 ^ s.cfg.clockW) (hd : d.length = 4)
    (hscript : s.script = silenceScript n) :
    (elapsed s.cfg.clockW (unanswered p d s).tReq (unanswered p d s).now).toNat = n := by
  obtain ⟨-, -, -, -, -, hw, -⟩ := hparams
  have hfirst : (nextMove (awaiting p d s)).ticks = 0 := by rw [nextMove, awaiting_script hd hscript]; rfl
  have hsecond : (nextMove (silent (awaiting p d s))).ticks = n := by
    have htail : (silent (awaiting p d s)).script = (awaiting p d s).script.tail := rfl
    rw [nextMove, htail, awaiting_script hd hscript]
    rfl
  have hsampled : (silent (awaiting p d s)).now = clockTrunc s.cfg.clockW s.now := by
    have hpassed : (silent (awaiting p d s)).now = BitVec.ofNat 32
        (((clockTrunc s.cfg.clockW s.now).toNat + (nextMove (awaiting p d s)).ticks) % 2 ^ s.cfg.clockW) := rfl
    rw [hpassed, hfirst]
    exact clockTrunc_clockTrunc ..
  have hnow : (unanswered p d s).now =
      BitVec.ofNat 32 (((clockTrunc s.cfg.clockW s.now).toNat + n) % 2 ^ s.cfg.clockW) := by
    rw [← hsampled, ← hsecond]
    rfl
  rw [hnow]
  exact elapsed_later hw hn (clockTrunc s.cfg.clockW s.now)

/-- The first S6 finds the deadline passed exactly when more than TIMEOUT milliseconds have gone by (R196). -/
theorem deadlinePassed_unanswered_iff (hparams : s.cfg.Valid) (hn : n < 2 ^ s.cfg.clockW) (hd : d.length = 4)
    (hscript : s.script = silenceScript n) :
    deadlinePassed (unanswered p d s).cfg (unanswered p d s).tReq (unanswered p d s).now (unanswered p d s).timeout =
      true ↔ s.timeout.toNat < n := by
  rw [deadlinePassed_iff, unanswered_cfg, unanswered_timeout, elapsed_unanswered hparams hn hd hscript]

/-- Later than TIMEOUT, the request resolves as a failure. -/
theorem Asking.endsFailed_late (h : Asking s) (p : Byte) (hd : d.length = 4) (hrxq : s.rxq = [])
    (hscript : s.script = silenceScript n) (hlate : s.timeout.toNat < n) (hn : n < 2 ^ s.cfg.clockW) :
    EndsFailed p d .noData (s.diagLog ++ [.frameTx p d (checksum p d), .timeoutEvt]) s := by
  have hreaches := h.reaches_unanswered p hd hrxq hscript
  rw [pollDeadline_late ((deadlinePassed_unanswered_iff h.params hn hd hscript).mpr hlate), concludeRequest_unsent]
    at hreaches
  have hlog : (unsent [] (emit .timeoutEvt (unanswered p d s))).diagLog =
      s.diagLog ++ [.frameTx p d (checksum p d), .timeoutEvt] := by
    simp [unsent, unanswered_diagLog]
  exact ⟨.timeout, _, fun _ => nofun, ⟨rfl, rfl, rfl, rfl, rfl, hlog, unanswered_curOp p d s⟩, fun hidle =>
    runOperation_of_reaches hreaches (le_stepBound (by decide) _) (atRest_of_idle hidle)⟩

/-- Settles O34: the request of each command fails alike, and each makes its sentinel of it. -/
theorem unansweredRequestTimesOut : Obligations.UnansweredRequestTimesOut := by
  intro p a b n s hparams hs hrxq hscript hlate hn
  have hfails {op : Nibble} (hop : isRequestOp op = true) (i : Fin 3) {d : List Byte} (hd : d.length = 4) :
      EndsFailed p d .noData (s.diagLog ++ [.frameTx p d (checksum p d), .timeoutEvt])
        { accepted op p a b s with revIdx := i } :=
    Asking.endsFailed_late (s := { accepted op p a b s with revIdx := i }) ⟨rfl, hop, hs.off, hs.idle, hparams⟩ p hd
      hrxq hscript hlate hn
  have hlast {l : List DiagEvent} {e : DiagEvent} (hl : l = s.diagLog ++ [e, .timeoutEvt]) :
      l.getLast? = some .timeoutEvt := by simp [hl]
  obtain ⟨tq, hqexec, hqidle, hqv, -, hqkind, hqlog⟩ := query_sentinel hs (hfails (op := opQuery) rfl s.revIdx rfl)
  obtain ⟨tc, hcexec, hcidle, hcok, -, hckind, hclog⟩ :=
    control_sentinel hs (hfails (op := opControl) rfl s.revIdx rfl)
  obtain ⟨ts, hsexec, hsidle, hsd, -, hskind, hslog⟩ := scan_sentinel hs (hfails (op := opScan) rfl s.revIdx rfl)
  obtain ⟨tr, hrexec, hridle, hra, hrb, hrc, hrok, -, hrkind, hrlog⟩ :=
    getRevision_sentinel hs (hfails (op := opGetRevision) rfl 0 rfl)
  exact ⟨⟨tq, hqexec, hqidle, hqv, hqkind, hqlog⟩, ⟨tc, hcexec, hcidle, hcok, hckind, hlast hclog⟩,
    ⟨ts, hsexec, hsidle, hsd, hskind, hlast hslog⟩,
    ⟨tr, hrexec, hridle, hrok, hra, hrb, hrc, hrkind, hlast hrlog⟩⟩

theorem passed_now_lt (s : State) : (passed s).now.toNat < 2 ^ (passed s).cfg.clockW := by
  rw [passed, BitVec.toNat_ofNat]
  exact (Nat.mod_le _ _).trans_lt (Nat.mod_lt _ (Nat.two_pow_pos _))

/-- With the script used up the clock stands still. -/
theorem passed_now_of_spent (hscript : s.script = []) (hnow : s.now.toNat < 2 ^ s.cfg.clockW) :
    (passed s).now = s.now := by
  have hticks : (nextMove s).ticks = 0 := by rw [nextMove, hscript]; rfl
  rw [passed, hticks, Nat.add_zero, Nat.mod_eq_of_lt hnow, BitVec.ofNat_toNat, BitVec.setWidth_eq]

/-- A request whose deadline has not passed, and for which nothing more will happen, only waits after one more
attempt. -/
theorem Polling.waits (h : Polling s) (hscript : s.script = []) (hrxq : s.rxq = [])
    (hnow : s.now.toNat < 2 ^ s.cfg.clockW) (hin : ¬ deadlinePassed s.cfg s.tReq s.now s.timeout = true) :
    ∃ t, Reaches 1 (pollDeadline s) t ∧ t.busy = true ∧ t.ctl = .sent ∧ t.qValue = s.qValue ∧
      waitsOnSilence t = true := by
  have hcalm : NoArrivals (startAttempt s) := by
    intro m hm
    rw [startAttempt_script, hscript] at hm
    cases hm
  have hstill : (Machine.passed (startAttempt s)).now = s.now :=
    passed_now_of_spent (s := startAttempt s) hscript hnow
  have hdeadline : ¬ deadlinePassed s.cfg s.tReq (Machine.passed (startAttempt s)).now s.timeout = true := by
    rwa [hstill]
  rw [pollDeadline_inTime hin]
  refine ⟨_, h.beginning.reaches_silent h.request hcalm hrxq, h.busy, h.sent, rfl, ?_⟩
  simp [waitsOnSilence, silent, raiseKind, Machine.passed, hscript, hrxq, h.noFrame, h.sent] at hdeadline ⊢
  exact hdeadline

/-- Settles O35: not later than TIMEOUT, one more attempt finds nothing, and the script is used up. -/
theorem requestWaitsUntilTheDeadline : Obligations.RequestWaitsUntilTheDeadline := by
  intro p a b n s hparams hs hrxq hscript hin hn
  have hasking : Asking (accepted opQuery p a b s) := asking_accepted hs hparams rfl
  have hpolling : Polling (unanswered p (requestPayload a b) (accepted opQuery p a b s)) :=
    ((hasking.beginning p (requestPayload a b)).polling_silent hasking.request rfl).passed
  have hdeadline := mt (deadlinePassed_unanswered_iff (p := p) (d := requestPayload a b)
    (s := accepted opQuery p a b s) hparams hn rfl hscript).mp (Nat.not_lt.mpr hin)
  have hspent : (unanswered p (requestPayload a b) (accepted opQuery p a b s)).script = [] :=
    unanswered_script rfl hscript
  have hsilence : (unanswered p (requestPayload a b) (accepted opQuery p a b s)).rxq = [] :=
    (unanswered_rxq ..).trans hrxq
  obtain ⟨t, hagain, hbusy, hsent, hq, hwaits⟩ := hpolling.waits hspent hsilence (passed_now_lt _) hdeadline
  have hrun := runOperation_of_reaches ((hasking.reaches_unanswered p rfl hrxq hscript).trans hagain)
    (le_stepBound (by decide) _) (by rw [atRest, hwaits, Bool.or_true])
  exact ⟨t, (exec_query hs).trans hrun, hbusy, hsent, hq.trans (unanswered_qValue ..), hwaits⟩

end

end Sys2Proof.Machine
end

section
/-! SUPPORT. Every operation comes to rest (spec 44_controller.md R205, R294): a number of steps that every step of a
block that is not at rest makes smaller. -/

namespace Sys2Proof.Safety

open Sys2Proof.Machine

/-! ### The measure -/

/-- Two steps for each entry of the script, three for each unit that waits or will arrive. -/
def environmentSteps (s : State) : Nat := 2 * s.script.length + 3 * unitsToCome s

/-- The steps that the action in progress takes but for what the environment brings: the units of a frame and four to
find the line, else what is left of an attempt. A poll of a silent line is two steps, each with an entry of the script
to itself. -/
def phaseSteps (s : State) : Nat :=
  match s.enc with
  | some r => (unitsLeft r).length + 4
  | none =>
    match s.cp with
    | .dOff => if s.ctl = .sent ∧ s.rxq = [] then 2 else 4
    | .dBegin => if s.s1Seen then 2 else 3
    | .dLoop => 1
    | .dRead => 0
    | .dEof => 2
    | .dFinish => 1

/-- The steps of the requests that GET_REVISION has still to send after the one in progress. -/
def laterSteps (s : State) : Nat := if s.curOp = opGetRevision then 11 * (2 - s.revIdx.val) else 0

/-- No operation takes more steps to come to rest. -/
def stepsLeft (s : State) : Nat := environmentSteps s + phaseSteps s + laterSteps s

/-- The operation of `s` is over in `t`, or goes on with another request. -/
def GoesOn (s t : State) : Prop := t.busy = false ∨ stepsLeft t ≤ environmentSteps s + laterSteps s

section
variable {k : Kind} {s t : State}

theorem phaseSteps_sending {r : EncRun} (h : s.enc = some r) : phaseSteps s = (unitsLeft r).length + 4 := by
  simp only [phaseSteps, h]

theorem phaseSteps_off (henc : s.enc = none) (hcp : s.cp = .dOff) :
    phaseSteps s = if s.ctl = .sent ∧ s.rxq = [] then 2 else 4 := by
  simp only [phaseSteps, henc, hcp]

theorem phaseSteps_begin (henc : s.enc = none) (hcp : s.cp = .dBegin) :
    phaseSteps s = if s.s1Seen then 2 else 3 := by
  simp only [phaseSteps, henc, hcp]

theorem phaseSteps_loop (henc : s.enc = none) (hcp : s.cp = .dLoop) : phaseSteps s = 1 := by
  simp only [phaseSteps, henc, hcp]

theorem phaseSteps_eof (henc : s.enc = none) (hcp : s.cp = .dEof) : phaseSteps s = 2 := by
  simp only [phaseSteps, henc, hcp]

theorem phaseSteps_finish (henc : s.enc = none) (hcp : s.cp = .dFinish) : phaseSteps s = 1 := by
  simp only [phaseSteps, henc, hcp]

/-! ### The end of a request -/

theorem startSubQuery_stepsLeft (i : Fin 3) (hop : s.curOp = opGetRevision) :
    stepsLeft (startSubQuery i s) = environmentSteps s + 11 * (3 - i.val) := by
  have henv : environmentSteps (startSubQuery i s) = environmentSteps s := rfl
  have hphase : phaseSteps (startSubQuery i s) = 11 := rfl
  have hlater : laterSteps (startSubQuery i s) = 11 * (2 - i.val) := if_pos hop
  rw [stepsLeft, henv, hphase, hlater]
  omega

theorem revisionResult_goesOn (r : Resolution) (hop : s.curOp = opGetRevision) : GoesOn s (revisionResult r s) := by
  cases r with
  | success v =>
    by_cases hidx : s.revIdx = 2
    · exact .inl (by rw [revisionResult, hidx]; rfl)
    · have henv : environmentSteps (setVal s.revIdx v s) = environmentSteps s := by unfold setVal; split <;> rfl
      have hlater : laterSteps s = 11 * (2 - s.revIdx.val) := if_pos hop
      refine .inr ?_
      rw [revisionResult_next hidx rfl, startSubQuery_stepsLeft _ (by rw [setVal_curOp]; exact hop), henv, hlater]
      have hnext : (s.revIdx + 1).val = s.revIdx.val + 1 := by omega
      omega
  | _ => exact .inl rfl

theorem commandResult_goesOn (r : Resolution) (hop : isRequestOp s.curOp = true) : GoesOn s (commandResult r s) := by
  obtain h | h | h | h := isRequestOp_cases hop
  · rw [commandResult_query r h]
    exact .inl (congrArg State.busy (queryResult_view r s) :)
  · rw [commandResult_control r h]
    exact .inl (congrArg State.busy (controlResult_view r s) :)
  · rw [commandResult_scan r h]
    exact .inl (congrArg State.busy (scanResult_view r s) :)
  · rw [commandResult_getRevision r h]
    exact revisionResult_goesOn r h

theorem concludeRequest_goesOn (r : Resolution) (hop : isRequestOp s.curOp = true) :
    GoesOn s (concludeRequest r s) :=
  commandResult_goesOn (s := { s with ctl := .idle }) r hop

/-- Every outcome but NO_DATA resolves a request. -/
theorem requestOutcome_goesOn (hk : k ≠ .noData) (hop : isRequestOp s.curOp = true) :
    GoesOn s (requestOutcome k s) := by
  cases k with
  | noData => exact absurd rfl hk
  | ok =>
    rw [requestOutcome, resolveOk]
    split
    · exact concludeRequest_goesOn _ hop
    · exact concludeRequest_goesOn (s := emitFail .badLength (s.rxLen.setWidth 16) s) _ hop
  | _ => exact concludeRequest_goesOn _ hop

theorem recvReqResult_busy (k : Kind) (s : State) : (recvReqResult k s).busy = false :=
  (congrArg State.busy (recvReqResult_view k s) :)

theorem deliver_goesOn (hk : k ≠ .noData ∨ isRequestOp s.curOp = false) : GoesOn s (deliver k s) := by
  unfold deliver
  split_ifs with hreq hrecv
  · exact requestOutcome_goesOn (hk.resolve_right (by rw [hreq]; nofun)) hreq
  · exact .inl (recvReqResult_busy k s)
  · exact .inl rfl

theorem endAttempt_goesOn (hk : k ≠ .noData) : GoesOn s (endAttempt k s) :=
  deliver_goesOn (s := raiseKind k s) (.inl hk)

/-! ### An action -/

theorem finishAttempt_goesOn (h : finishAttempt s = .next t) : GoesOn s t := by
  unfold finishAttempt at h
  split_ifs at h
  · cases h
    exact endAttempt_goesOn (s := emitFail .truncated (s.cursor.setWidth 16) { s with cursor := 0 }) nofun
  · obtain ⟨-, -, rfl⟩ | ⟨-, rfl⟩ := finishFrame_eq_next h
    · exact endAttempt_goesOn nofun
    · exact endAttempt_goesOn nofun

/-- The operation of `s` has ended in `t`, or fewer steps are left. -/
def Advances (s t : State) : Prop := t.busy = false ∨ stepsLeft t < stepsLeft s

theorem GoesOn.advances (h : GoesOn s t) (hphase : 0 < phaseSteps s) : Advances s t :=
  h.imp_right fun hle => hle.trans_lt (by rw [stepsLeft]; omega)

/-- An action after which the same requests are to come. -/
theorem Advances.of_phase (henv : environmentSteps t = environmentSteps s) (hlater : laterSteps t = laterSteps s)
    (hphase : phaseSteps t < phaseSteps s) : Advances s t :=
  .inr (by rw [stepsLeft, stepsLeft]; omega)

theorem encodeTick_advances {r : EncRun} (henc : s.enc = some r) (hoff : s.cp = .dOff) :
    Advances s (encodeTick r s) := by
  have hphase := phaseSteps_sending henc
  obtain ⟨x, us, hus⟩ := List.exists_cons_of_ne_nil (unitsLeft_ne_nil r)
  rw [hus, List.length_cons] at hphase
  by_cases hlast : us = []
  · subst hlast
    obtain ⟨hstage, -⟩ := stage_of_unitsLeft_singleton hus
    rw [encodeTick_low s hstage]
    set u := emit (.frameTx r.port r.payload r.acc) (writeUnit (plainUnit (lowByte r.acc)) { s with enc := none })
    cases hop : isRequestOp u.curOp with
    | true =>
      rw [frameSent_request hop]
      refine .of_phase rfl rfl ?_
      rw [phaseSteps_off (s := u) rfl hoff, hphase]
      split <;> simp
    | false =>
      rw [frameSent_other hop]
      exact .inl rfl
  · obtain ⟨r', rfl, hencode⟩ := encodeTick_of_unitsLeft s hus hlast
    rw [hencode]
    refine .of_phase rfl rfl ?_
    rw [phaseSteps_sending (s := writeUnit x { s with enc := some r' }) rfl, hphase]
    omega

/-- The block is about to poll a line on which nothing waits, its deadline not passed. -/
structure Polls (s : State) : Prop where
  noFrame : s.enc = none
  off : s.cp = .dOff
  sent : s.ctl = .sent
  silent : s.rxq = []
  inTime : ¬ deadlinePassed s.cfg s.tReq s.now s.timeout = true

theorem betweenAttempts_advances (h : BlockInv s) (hbusy : s.busy = true) (hoff : s.cp = .dOff) (henc : s.enc = none) :
    Advances s (betweenAttempts s) ∨ (Polls s ∧ stepsLeft (betweenAttempts s) = stepsLeft s + 1) := by
  have hop := h.operation.between hbusy hoff henc
  have hphase := phaseSteps_off henc hoff
  rw [betweenAttempts, if_pos hop]
  obtain hctl | hctl := h.operation.shown
  · rw [controllerTick, hctl]
    refine .inl (.of_phase rfl rfl ?_)
    rw [phaseSteps_begin (s := enterSent s) henc rfl, hphase, hctl]
    simp
  · have hpoll : controllerTick s = pollDeadline s := by rw [controllerTick, hctl]
    have hagain : phaseSteps (startAttempt s) = 3 := phaseSteps_begin (s := startAttempt s) henc rfl
    by_cases hlate : deadlinePassed s.cfg s.tReq s.now s.timeout = true
    · refine .inl (GoesOn.advances ?_ (by rw [hphase]; split <;> decide))
      rw [hpoll, pollDeadline_late hlate]
      exact concludeRequest_goesOn (s := emit .timeoutEvt s) _ hop
    · rw [hpoll, pollDeadline_inTime hlate]
      by_cases hrxq : s.rxq = []
      · rw [if_pos ⟨hctl, hrxq⟩] at hphase
        have henv : environmentSteps (startAttempt s) = environmentSteps s := rfl
        have hlater : laterSteps (startAttempt s) = laterSteps s := rfl
        exact .inr ⟨⟨henc, hoff, hctl, hrxq, hlate⟩, by rw [stepsLeft, stepsLeft]; omega⟩
      · rw [if_neg (fun hboth => hrxq hboth.2)] at hphase
        exact .inl (.of_phase rfl rfl (by omega))

theorem testAvailable_advances (h : BlockInv s) (henc : s.enc = none) (hc : s.cp = .dBegin) (hs1 : s.s1Seen = false) :
    Advances s (testAvailable s) := by
  have hphase : phaseSteps s = 3 := by rw [phaseSteps_begin henc hc, hs1]; rfl
  have hempty := h.decode.beginEmpty hc
  by_cases hrxq : s.rxq = []
  · rw [testAvailable_silent hempty hrxq, endAttempt]
    obtain ⟨hop, hctl⟩ | ⟨hop, -⟩ := h.owner_of_running (by rw [hc]; nofun)
    · rw [deliver_request _ (by exact hop)]
      refine .of_phase rfl rfl ?_
      rw [requestOutcome, phaseSteps_off (s := raiseKind .noData s) henc rfl, if_pos ⟨hctl, hrxq⟩, hphase]
      decide
    · obtain hop | hop := hop
      · rw [deliver_recvReq _ (by exact hop)]
        exact .inl (recvReqResult_busy ..)
      · rw [deliver_receive _ (by exact hop)]
        exact .inl rfl
  · rw [testAvailable_waiting hrxq]
    refine .of_phase rfl rfl ?_
    rw [phaseSteps_begin (s := { s with s1Seen := true }) henc hc, hphase, if_pos rfl]
    decide

theorem testDeadline_advances (henc : s.enc = none) (hc : s.cp = .dLoop) : Advances s (testDeadline s) := by
  have hphase := phaseSteps_loop henc hc
  by_cases hlate : deadlinePassed s.cfg s.tStart s.now s.timeout = true
  · rw [testDeadline_late hlate]
    have hover : GoesOn s (endAttempt .timeout (emit .timeoutEvt { s with cursor := 0 })) :=
      endAttempt_goesOn (s := emit .timeoutEvt { s with cursor := 0 }) nofun
    exact hover.advances (by omega)
  · rw [testDeadline_inTime hlate]
    refine .of_phase rfl rfl ?_
    simp [phaseSteps, henc, hc]

/-- A unit that is taken from the line brings three steps with it. -/
theorem environmentSteps_taken {x : LineUnit} {rest : List LineUnit} (hrxq : s.rxq = x :: rest) :
    environmentSteps s = environmentSteps { s with rxq := rest } + 3 := by
  simp only [environmentSteps, unitsToCome, hrxq, List.length_cons]
  omega

theorem storeUnit_advances {x : LineUnit} {rest : List LineUnit} (henc : s.enc = none) (hrxq : s.rxq = x :: rest)
    (hstore : storeUnit x { s with rxq := rest } = .next t) : Advances s t := by
  have htaken := environmentSteps_taken hrxq
  have hstored {u : State} (henv : environmentSteps u = environmentSteps { s with rxq := rest })
      (hlater : laterSteps u = laterSteps s) (hu : u.enc = none) (hcp : u.cp = .dEof) : Advances s u := by
    have hphase := phaseSteps_eof hu hcp
    exact .inr (by rw [stepsLeft, stepsLeft]; omega)
  unfold storeUnit at hstore
  split at hstore
  · obtain ⟨-, rfl⟩ := storeStart_eq_next hstore
    split <;> exact hstored rfl rfl henc rfl
  · obtain ⟨-, rfl⟩ | ⟨-, rfl⟩ := storeData_eq_next hstore
    · have hover : GoesOn { s with rxq := rest } (endAttempt .overflow
          (emitFail .overflow 0 { s with rxq := rest, cursor := 0 })) :=
        endAttempt_goesOn (s := emitFail .overflow 0 { s with rxq := rest, cursor := 0 }) nofun
      have hlater : laterSteps { s with rxq := rest } = laterSteps s := rfl
      exact hover.imp_right fun hle => hle.trans_lt (by rw [stepsLeft]; omega)
    · exact hstored rfl rfl henc rfl

/-- Every action of a block in the invariant, but a poll of a silent line, leaves fewer steps. -/
theorem act_advances (h : BlockInv s) (hbusy : s.busy = true) (hact : act s = .next t) :
    Advances s t ∨ (Polls s ∧ stepsLeft t = stepsLeft s + 1) := by
  cases he : s.enc with
  | some r =>
    rw [act_sending he] at hact
    cases hact
    obtain ⟨hoff, -⟩ := h.operation.sending (by simp [he])
    exact .inl (encodeTick_advances he hoff)
  | none =>
    cases hc : s.cp with
    | dOff =>
      rw [act_off he hc] at hact
      cases hact
      exact betweenAttempts_advances h hbusy hc he
    | dBegin =>
      refine .inl ?_
      rw [act_begin he hc] at hact
      cases hact
      split
      · rename_i hs1
        refine .of_phase rfl rfl ?_
        rw [phaseSteps_loop (s := recordStart s) he rfl, phaseSteps_begin he hc, if_pos hs1]
        decide
      · rename_i hs1
        exact testAvailable_advances h he hc (by simpa using hs1)
    | dLoop =>
      rw [act_loop he hc] at hact
      cases hact
      exact .inl (testDeadline_advances he hc)
    | dRead =>
      rw [act_read he hc] at hact
      cases hrxq : s.rxq with
      | nil => exact absurd hrxq (h.decode.available (.inr (.inl hc)))
      | cons x rest =>
        rw [readUnit_cons hrxq] at hact
        exact .inl (storeUnit_advances he hrxq hact)
    | dEof =>
      rw [act_eof he hc] at hact
      cases hact
      refine .inl (.of_phase rfl rfl ?_)
      rw [phaseSteps_eof he hc]
      unfold testGap
      split
      · exact (phaseSteps_finish (s := { s with cp := .dFinish }) he rfl).trans_lt (by decide)
      · exact (phaseSteps_loop (s := { s with cp := .dLoop }) he rfl).trans_lt (by decide)
    | dFinish =>
      rw [act_finish he hc] at hact
      exact .inl ((finishAttempt_goesOn hact).advances (by rw [phaseSteps_finish he hc]; decide))

/-! ### The environment -/

theorem moved_rxq (s : State) : (moved s).rxq = s.rxq ++ (nextMove s).arrivals := by
  unfold moved refusePresented
  split <;> rfl

/-- Units that arrive were to come before. -/
theorem unitsToCome_moved (s : State) : unitsToCome (moved s) = unitsToCome s := by
  have hscript : (moved s).script = s.script.tail := (congrArg State.script (moved_untouched s) :)
  rw [unitsToCome, unitsToCome, moved_rxq, hscript, nextMove]
  cases s.script with
  | nil => simp [EnvMove.quiet]
  | cons m rest => simp [Nat.add_assoc]

theorem environmentSteps_moved (s : State) :
    environmentSteps (moved s) + 2 * (s.script.length - s.script.tail.length) = environmentSteps s := by
  have hscript : (moved s).script = s.script.tail := (congrArg State.script (moved_untouched s) :)
  rw [environmentSteps, environmentSteps, unitsToCome_moved, hscript, List.length_tail]
  omega

theorem laterSteps_moved (s : State) : laterSteps (moved s) = laterSteps s := by
  unfold moved refusePresented
  split <;> rfl

/-- Of the environment's move the action in progress sees the arrivals. -/
theorem phaseSteps_moved (s : State) :
    phaseSteps (moved s) = phaseSteps { s with rxq := s.rxq ++ (nextMove s).arrivals } := by
  unfold moved refusePresented
  split <;> rfl

/-- Only between two attempts does it matter what waits on the line. -/
theorem phaseSteps_rxq_le (s : State) (q : List LineUnit) : phaseSteps { s with rxq := q } ≤ phaseSteps s + 2 := by
  cases he : s.enc with
  | some r => simp [phaseSteps, he]
  | none =>
    cases hc : s.cp with
    | dOff =>
      simp only [phaseSteps, he, hc]
      split_ifs <;> omega
    | _ => simp [phaseSteps, he, hc]

/-- The environment's move brings no new steps: arrivals at a silent line take two from their entry of the script. -/
theorem phaseSteps_moved_le (s : State) :
    phaseSteps (moved s) ≤ phaseSteps s + 2 * (s.script.length - s.script.tail.length) := by
  rw [phaseSteps_moved]
  cases hscript : s.script with
  | nil =>
    have hquiet : (nextMove s).arrivals = [] := by rw [nextMove, hscript]; rfl
    rw [hquiet, List.append_nil]
    exact Nat.le_add_right _ _
  | cons m rest =>
    refine (phaseSteps_rxq_le s _).trans ?_
    simp

theorem stepsLeft_moved_le (s : State) : stepsLeft (moved s) ≤ stepsLeft s := by
  have henv := environmentSteps_moved s
  have hphase := phaseSteps_moved_le s
  rw [stepsLeft, stepsLeft, laterSteps_moved]
  omega

/-- With the script used up the environment does nothing. -/
theorem moved_of_spent (h : ClocksFit s) (hscript : s.script = []) : moved s = s := by
  have hmove : nextMove s = EnvMove.quiet := by rw [nextMove, hscript]
  have hnow := h.now
  rw [moved_of_not_present (by rw [hmove]; rfl), environmentActs, hmove]
  cases s
  simp_all [EnvMove.quiet, Nat.mod_eq_of_lt]

/-- A block in the invariant that polls a silent line and is not at rest has an entry of the script for it. -/
theorem script_ne_nil_of_polls (h : BlockInv s) (hrest : atRest s = false) (hpolls : Polls (moved s)) :
    s.script ≠ [] := by
  intro hscript
  rw [moved_of_spent h.clocks hscript] at hpolls
  obtain ⟨henc, hoff, hctl, hrxq, htime⟩ := hpolls
  have hwaits : waitsOnSilence s = true := by simp [waitsOnSilence, hscript, hrxq, henc, hoff, hctl, htime]
  simp [atRest, hwaits] at hrest

/-- A line found silent was silent before. -/
theorem phaseSteps_moved_of_polls (hpolls : Polls (moved s)) : phaseSteps (moved s) = phaseSteps s := by
  have hrxq := hpolls.silent
  rw [moved_rxq, List.append_eq_nil_iff] at hrxq
  obtain ⟨hwaiting, harrivals⟩ := hrxq
  rw [phaseSteps_moved, harrivals, List.append_nil]

theorem tick_advances (h : BlockInv s) (hbusy : s.busy = true) (hrest : atRest s = false) (htick : tick s = .next t) :
    Advances s t := by
  cases hr : (nextMove s).rst with
  | true =>
    rw [tick, if_pos hr] at htick
    cases htick
    exact .inl rfl
  | false =>
    rw [tick_of_not_rst hr] at htick
    have hmoved : (moved s).busy = true := by
      rw [← hbusy]
      unfold moved refusePresented
      split <;> rfl
    obtain hless | ⟨hpolls, hmore⟩ := act_advances (moved_inv h) hmoved htick
    · exact hless.imp_right fun hlt => hlt.trans_le (stepsLeft_moved_le s)
    · have hscript := List.length_pos_of_ne_nil (script_ne_nil_of_polls h hrest hpolls)
      have henv := environmentSteps_moved s
      rw [List.length_tail] at henv
      refine .inr ?_
      rw [hmore, stepsLeft, stepsLeft, laterSteps_moved, phaseSteps_moved_of_polls hpolls]
      omega

/-! ### The run of an operation -/

/-- With as many steps as are left, the run comes to rest. -/
theorem runSteps_rests {n : Nat} (h : BlockInv s) (hn : atRest s = true ∨ stepsLeft s < n) :
    ∃ t, runSteps n s = .next t ∧ atRest t = true := by
  induction n generalizing s with
  | zero => exact ⟨s, rfl, hn.resolve_right (Nat.not_lt_zero _)⟩
  | succ n ih =>
    cases hrest : atRest s with
    | true => exact ⟨s, runSteps_of_rest hrest, hrest⟩
    | false =>
      have hbusy : s.busy = true := by
        by_contra hidle
        rw [atRest_of_idle (by simpa using hidle)] at hrest
        cases hrest
      obtain ⟨u, hu⟩ := tick_next h
      rw [runSteps_succ hrest, hu, andThen_next]
      have hleft := hn.resolve_left (by rw [hrest]; nofun)
      refine ih (tick_inv h hbusy hu) ?_
      exact (tick_advances h hbusy hrest hu).imp atRest_of_idle fun hlt => by omega

/-- A command that sends begins at the port byte. -/
theorem stage_of_firstAction {r : EncRun} (henc : s.enc = none) (h : (firstAction s).enc = some r) :
    r.stage = .portUnit := by
  unfold firstAction at h
  split_ifs at h <;> simp [startSubQuery, startRequest, henc] at h <;> simp [← h]

/-- The longest action is a frame of MAX_PAYLOAD bytes. -/
theorem phaseSteps_le (h : BlockInv s) (hstage : ∀ r, s.enc = some r → r.stage = .portUnit) : phaseSteps s ≤ 259 := by
  obtain ⟨-, hmax, -⟩ := h.params
  cases he : s.enc with
  | some r =>
    have hfits := h.operation.payloadFits r he
    rw [phaseSteps_sending he, unitsLeft, hstage r he, encodeFrame_length]
    omega
  | none =>
    simp only [phaseSteps, he]
    split <;> (try split_ifs) <;> omega

theorem laterSteps_le (s : State) : laterSteps s ≤ 22 := by
  unfold laterSteps
  split_ifs <;> omega

/-- A command that begins has fewer steps left than the bound allows. -/
theorem stepsLeft_lt_stepBound (h : BlockInv s) (hstage : ∀ r, s.enc = some r → r.stage = .portUnit) :
    stepsLeft s < stepBound s := by
  have hphase := phaseSteps_le h hstage
  have hlater := laterSteps_le s
  rw [stepsLeft, environmentSteps, stepBound]
  omega

/-- Settles O41: a refused word changes nothing but the log; an accepted word's operation has enough steps. -/
theorem commandsComeToRest : Obligations.CommandsComeToRest := by
  intro w s h hidle
  rw [exec_decodeCommand]
  cases hr : refuses s.cfg s.busy w with
  | true => exact ⟨_, perform_refused hr, atRest_of_idle hidle⟩
  | false =>
    obtain ⟨-, -, henc⟩ := h.operation.quiescent hidle
    have hbegin := firstAction_accept_inv h hr
    rw [perform_accepted hr]
    exact runSteps_rests hbegin (.inr (stepsLeft_lt_stepBound hbegin fun r => stage_of_firstAction henc))

end

end Sys2Proof.Safety
end

section
/-! SUPPORT. The byte-order converter as numbers (spec 45_device.md R228 to R230). -/

namespace Sys2Proof.Machine

theorem highByte_eq_ofNat (v : Half) : highByte v = BitVec.ofNat 8 (v.toNat / 256) := by
  rw [highByte, BitVec.extractLsb', Nat.shiftRight_eq_div_pow]

theorem lowByte_eq_ofNat (v : Half) : lowByte v = BitVec.ofNat 8 (v.toNat % 256) := by
  apply BitVec.eq_of_toNat_eq
  rw [lowByte_toNat, BitVec.toNat_ofNat, Nat.mod_mod]

/-- The low byte fits in the eight bits that the shift of the high byte leaves free, so joining them is a sum. -/
theorem be16Unpack_toNat (b0 b1 : Byte) : (be16Unpack b0 b1).toNat = b0.toNat * 256 + b1.toNat := by
  rw [be16Unpack, BitVec.toNat_append, ← Nat.shiftLeft_add_eq_or_of_lt b1.isLt, Nat.shiftLeft_eq]

/-- Settles O7: each byte and the joined value as a number; the inverse laws are those the frames rest on. -/
theorem converterIsBigEndian : Obligations.ConverterIsBigEndian := by
  refine ⟨fun v => ?_, be16Unpack_toNat, be16Unpack_be16Pack, be16Pack_be16Unpack⟩
  rw [be16Pack, highByte_eq_ofNat, lowByte_eq_ofNat]

end Sys2Proof.Machine
end

section
/-! SUPPORT. The clock as a number (spec 60_exceptions.md R256): the difference of two samples, taken in 32 bits, is a
difference of `CLOCK_W` bits. -/

namespace Sys2Proof.Machine

/-- `2 ^ 32` is a multiple of `2 ^ CLOCK_W`, so borrowing the one or the other leaves the same residue. -/
theorem sub_add_mod_twoPow {w n m : Nat} (hw : w ≤ 32) (hn : n < 2 ^ w) :
    (2 ^ 32 - n + m) % 2 ^ w = (m + (2 ^ w - n)) % 2 ^ w := by
  have hle : 2 ^ w ≤ 2 ^ 32 := Nat.pow_le_pow_right (by decide) hw
  have hsplit : 2 ^ 32 - n + m = (m + (2 ^ w - n)) + (2 ^ 32 - 2 ^ w) := by omega
  have hdvd : 2 ^ w ∣ 2 ^ 32 - 2 ^ w := Nat.dvd_sub (Nat.pow_dvd_pow 2 hw) dvd_rfl
  rw [hsplit, Nat.add_mod, Nat.mod_eq_zero_of_dvd hdvd, Nat.add_zero, Nat.mod_mod]

/-- Settles O11: the strict test compares the same number. -/
theorem elapsedIsModularSubtraction : Obligations.ElapsedIsModularSubtraction := by
  intro c t0 t1 timeout hvalid ht0 _
  obtain ⟨-, -, -, -, -, hclockW, -⟩ := hvalid
  have helapsed : (elapsed c.clockW t0 t1).toNat = (t1.toNat + (2 ^ c.clockW - t0.toNat)) % 2 ^ c.clockW := by
    rw [elapsed_toNat hclockW, sub_add_mod_twoPow hclockW ht0]
  exact ⟨helapsed, by rw [deadlinePassed, helapsed]⟩

end Sys2Proof.Machine
end

section
/-! SUPPORT. A command word presented while the block is busy, and an idle block to which none is presented (spec
60_exceptions.md R243, R263, R283). -/

namespace Sys2Proof.Machine

open Sys2Proof.Safety

section
variable {s : State} {w : CmdWord}

/-! ### The busy block -/

theorem refuse_eq_onlyRefused (w : CmdWord) (s : State) :
    refuse w s = onlyRefused (cmdOp w ++ cmdRsvd w ++ cmdPort w) s := by
  rw [refuse_eq, refusedData, onlyRefused]

theorem nextMove_withoutPresented (s : State) :
    nextMove (withoutPresented s) = { nextMove s with present := none } := by
  unfold nextMove withoutPresented
  cases s.script with
  | nil => rfl
  | cons m rest => rfl

/-- What the environment does to `rxq` and `now` does not depend on the word it presents. -/
theorem environmentActs_withoutPresented (s : State) : environmentActs (withoutPresented s) = environmentActs s := by
  have htail : (withoutPresented s).script.tail = s.script.tail := by
    unfold withoutPresented
    cases s.script with
    | nil => rfl
    | cons m rest => rfl
  rw [environmentActs, nextMove_withoutPresented, htail]
  rfl

/-- The refusal may as well come before the environment's move. -/
theorem moved_of_present (h : (nextMove s).present = some w) : moved s = moved (refuse w (withoutPresented s)) := by
  have hnone : (nextMove (refuse w (withoutPresented s))).present = none :=
    congrArg EnvMove.present (nextMove_withoutPresented s)
  calc moved s = refuse w (environmentActs s) := refusePresented_some _ h
    _ = refuse w (environmentActs (withoutPresented s)) := by rw [environmentActs_withoutPresented]
    _ = moved (refuse w (withoutPresented s)) := (moved_of_not_present hnone).symm

theorem tick_of_present (hrst : (nextMove s).rst = false) (h : (nextMove s).present = some w) :
    tick s = tick (refuse w (withoutPresented s)) := by
  have hrst' : (nextMove (refuse w (withoutPresented s))).rst = false :=
    (congrArg EnvMove.rst (nextMove_withoutPresented s)).trans hrst
  rw [tick_of_not_rst hrst, tick_of_not_rst hrst', moved_of_present h]

end

/-- Settles O37: `exec` refuses every word of a busy block, and the step of a busy block is its `tick`. -/
theorem busyBlockRefusesEveryWord : Obligations.BusyBlockRefusesEveryWord := by
  intro w s hbusy
  have hrefuses : refuses s.cfg s.busy w = true := by rw [hbusy, refuses_of_busy]
  have hbusy' : (refuse w (withoutPresented s)).busy = true := hbusy
  rw [exec_decodeCommand, perform_refused hrefuses, ← refuse_eq_onlyRefused, ← refuse_eq_onlyRefused,
    step_of_busy hbusy, step_of_busy hbusy']
  exact ⟨rfl, fun hrst hpresent => ⟨tick_of_present hrst hpresent, tick_of_present hrst hpresent⟩⟩

/-! ### The idle block -/

/-- Settles O55: the step fetches nothing, so its next state is what the environment's move made of `s`. -/
theorem idleBlockDoesNothing : Obligations.IdleBlockDoesNothing := by
  intro s hidle hhost hrst hnone
  have hfetch : fetchCommand (nextMove s) (environmentActs s) = .nothing (environmentActs s) := by
    simp only [fetchCommand, hnone, environmentActs_hostq, hhost]
  rw [step_eq_run hrst, fetch_of_idle hidle, hfetch, Fetched.run, environmentActs]

end Sys2Proof.Machine
end

section
/-! SUPPORT. Reset (spec 70_reset_and_hazards.md R270 to R273): the values it gives the block, and a step that samples
it. -/

namespace Sys2Proof.Machine

/-- Settles O52: each value is a field of the reset state. -/
theorem resetState : Obligations.ResetState :=
  fun _ => ⟨rfl, rfl, rfl, rfl, rfl⟩

/-- Settles O53: such a step fetches nothing; its next state is the reset block in the environment's next state. -/
theorem resetAbandonsTheOperation : Obligations.ResetAbandonsTheOperation :=
  fun _ hrst => ⟨_, step_of_rst hrst, rfl, rfl, rfl, rfl, rfl, rfl, rfl, rfl, rfl, rfl, rfl, rfl, BitVec.toNat_ofNat ..⟩

end Sys2Proof.Machine
end

section
/-! SUPPORT. Operations that send no request end (spec 70_reset_and_hazards.md R294, 60_exceptions.md R251): every
operation comes to rest, and only a request rests while it is busy. -/

namespace Sys2Proof.Safety

open Sys2Proof.Machine

section
variable {s t : State}

/-- In the invariant only a request can wait on silence. -/
theorem idle_of_atRest (h : BlockInv s) (hop : isRequestOp s.curOp = false) (hrest : atRest s = true) :
    s.busy = false := by
  by_contra hbusy
  have hctl : s.ctl = .sent := by simp_all [atRest, waitsOnSilence]
  rw [h.operation.sentByRequest hctl] at hop
  cases hop

/-- Reset clears the latch, and no other step writes it. -/
theorem tick_sendsNoRequest (hop : isRequestOp s.curOp = false) (htick : tick s = .next t) :
    isRequestOp t.curOp = false := by
  obtain ⟨-, hreset⟩ | ⟨hrst, -⟩ := tick_cases s
  · rw [hreset] at htick
    cases htick
    rfl
  · obtain ⟨hkept, -⟩ := tick_untouchedByRun hrst htick
    obtain ⟨hcur, -⟩ := latch_of_untouchedByRun hkept
    rwa [hcur]

/-- A word that asks for no request leaves the block idle, whether it is refused or runs. -/
theorem exec_decodeCommand_ends {w : CmdWord} (h : BlockInv s) (hidle : s.busy = false)
    (hop : isRequestOp (cmdOp w) = false) : ∃ t, exec (decodeCommand w) s = .next t ∧ t.busy = false := by
  obtain ⟨t, hexec, hrest⟩ := commandsComeToRest w s h hidle
  refine ⟨t, hexec, ?_⟩
  rw [exec_decodeCommand] at hexec
  obtain ⟨-, rfl⟩ | ⟨-, hrun⟩ := perform_eq_next hexec
  · exact hidle
  · obtain ⟨hcur, -⟩ := firstAction_latch (accept w s)
    have hfirst : isRequestOp (firstAction (accept w s)).curOp = false := by rw [hcur]; exact hop
    have hlast : isRequestOp t.curOp = false :=
      runSteps_keeps (P := fun u => isRequestOp u.curOp = false) (fun _ _ hu _ => tick_sendsNoRequest hu) _ hfirst hrun
    exact idle_of_atRest (perform_inv h hexec) hlast hrest

/-- The word of a well-formed command decodes to that command. -/
theorem decodeCommand_of_encode {c : Params} {i : Instr} {w : CmdWord} (henc : encode i = .command w)
    (hwf : i.wellFormed c = true) : decodeCommand w = i := by
  have hdecode := decodeUndoesEncode c i hwf
  rw [henc] at hdecode
  exact Except.ok.inj hdecode

/-- Settles O42: the `op` of each of the six words asks for no request. -/
theorem commandsWithoutRequestEnd : Obligations.CommandsWithoutRequestEnd := by
  intro p a b i s h hidle hi
  have hends {op : Nibble} (henc : encode i = .command (commandWord op 0 p a b)) (hwf : i.wellFormed s.cfg = true)
      (hop : isRequestOp op = false) : ∃ t, exec i s = .next t ∧ t.busy = false := by
    rw [← decodeCommand_of_encode henc hwf]
    exact exec_decodeCommand_ends h hidle (by rwa [cmdOp_commandWord])
  simp only [List.mem_cons, List.not_mem_nil, or_false] at hi
  obtain rfl | rfl | rfl | rfl | rfl | rfl := hi <;> exact hends rfl rfl rfl

end

end Sys2Proof.Safety
end

section
/-! SUPPORT. A request on a silent line with a standing clock (spec 70_reset_and_hazards.md R294, 44_controller.md
R196): S6 and an attempt that finds nothing, in turn, for ever. -/

namespace Sys2Proof.Machine

open Sys2Proof.Safety

/-- The wait loop of a request to which nothing more happens before its deadline: the block is between two attempts, or
at S1 of one. -/
structure SilentWait (s : State) : Prop where
  busy : s.busy = true
  request : isRequestOp s.curOp = true
  sent : s.ctl = .sent
  noFrame : s.enc = none
  silent : s.rxq = []
  spent : s.script = []
  clock : s.now.toNat < 2 ^ s.cfg.clockW
  inTime : ¬ deadlinePassed s.cfg s.tReq s.now s.timeout = true
  place : s.cp = .dOff ∨ (s.cp = .dBegin ∧ s.s1Seen = false ∧ s.cursor = 0)

section
variable {s : State}

/-! ### Many steps -/

theorem run_succ_of_step {M : Host.Core} {s u : M.State} (h : M.step s = .next u) (k : Nat) :
    M.run (k + 1) s = M.run k u := by
  rw [Host.Core.run, h]

/-- The induction on the number of steps: every step from a state of `P` answers a state of `P`. -/
theorem run_next_of_step {P : State → Prop} (hstep : ∀ u, P u → ∃ v, step u = .next v ∧ P v) (k : Nat)
    (hs : P s) : ∃ t, core.run k s = .next t ∧ P t := by
  induction k generalizing s with
  | zero => exact ⟨s, rfl, hs⟩
  | succ k ih =>
    obtain ⟨u, hnext, hu⟩ := hstep s hs
    obtain ⟨t, hrun, ht⟩ := ih hu
    exact ⟨t, (run_succ_of_step hnext k).trans hrun, ht⟩

/-! ### The wait -/

theorem silentWait_of_waitsOnSilence (hbusy : s.busy = true) (hop : isRequestOp s.curOp = true)
    (hwaits : waitsOnSilence s = true) (hnow : s.now.toNat < 2 ^ s.cfg.clockW) : SilentWait s := by
  simp only [waitsOnSilence, Bool.and_eq_true, List.isEmpty_iff, Option.isNone_iff_eq_none, beq_iff_eq,
    Bool.not_eq_true'] at hwaits
  obtain ⟨⟨⟨⟨⟨hspent, hsilent⟩, henc⟩, hoff⟩, hsent⟩, hin⟩ := hwaits
  exact ⟨hbusy, hop, hsent, henc, hsilent, hspent, hnow, by simp [hin], .inl hoff⟩

/-- With the script used up and the clock within its width, the environment changes nothing. -/
theorem passed_of_spent (hscript : s.script = []) (hnow : s.now.toNat < 2 ^ s.cfg.clockW) : passed s = s := by
  have htail : s.script.tail = s.script := by rw [hscript]; rfl
  calc passed s = { s with script := s.script.tail, now := (passed s).now } := rfl
    _ = s := by rw [passed_now_of_spent hscript hnow, htail]

/-- The environment does nothing, so a step is the block's action. -/
theorem SilentWait.step_eq_act (h : SilentWait s) : step s = act s := by
  have hcalm : NoArrivals s := by
    intro m hm
    rw [h.spent] at hm
    cases hm
  rw [step_of_busy h.busy, tick_of_noArrivals hcalm, passed_of_spent h.spent h.clock]

/-- S6 begins another attempt, and the attempt goes back to S6. -/
theorem SilentWait.exists_step (h : SilentWait s) :
    ∃ t, step s = .next t ∧ SilentWait t ∧ t.txq = s.txq ∧ t.diagLog = s.diagLog := by
  rw [h.step_eq_act]
  obtain ⟨hbusy, hop, hsent, henc, hsilent, hspent, hclock, hin, hoff | ⟨hbegin, hs1, hempty⟩⟩ := h
  · refine ⟨startAttempt s, ?_, ⟨hbusy, hop, hsent, henc, hsilent, hspent, hclock, hin, .inr ⟨rfl, rfl, rfl⟩⟩, rfl, rfl⟩
    rw [act_off henc hoff, betweenAttempts, if_pos hop, controllerTick, hsent, pollDeadline_inTime hin]
  · refine ⟨raiseKind .noData s, ?_, ⟨hbusy, hop, hsent, henc, hsilent, hspent, hclock, hin, .inl rfl⟩, rfl, rfl⟩
    rw [act_begin_s1 henc hbegin hs1, testAvailable_silent hempty hsilent, endAttempt, deliver_request _ (by exact hop)]
    rfl

/-- Settles O36: the wait, the line and the log are the same after every step. -/
theorem silentWaitNeverEnds : Obligations.SilentWaitNeverEnds := by
  intro s k hbusy hop hwaits hnow _
  have hwait := silentWait_of_waitsOnSilence hbusy hop hwaits hnow
  have hstep (u : State) (hu : SilentWait u ∧ u.txq = s.txq ∧ u.diagLog = s.diagLog) :
      ∃ v, step u = .next v ∧ SilentWait v ∧ v.txq = s.txq ∧ v.diagLog = s.diagLog := by
    obtain ⟨hu, hline, hlog⟩ := hu
    obtain ⟨v, hnext, hv, hline', hlog'⟩ := hu.exists_step
    exact ⟨v, hnext, hv, hline'.trans hline, hlog'.trans hlog⟩
  obtain ⟨t, hrun, ht, hline, hlog⟩ := run_next_of_step hstep k ⟨hwait, rfl, rfl⟩
  exact ⟨t, hrun, ht.busy, ht.sent, hline, hlog⟩

end

end Sys2Proof.Machine
end
